-- ==== Sys2Proof/Word.lean ====
section
/-! DEFINITION. The words of the command port and the serial line, and the small closed sets of names that the spec's data
are drawn from. -/

namespace Sys2Proof

/-- A command word: one transfer of the command port (20_memory.md R81, 30_encoding.md R100). -/
abbrev Word := BitVec 16

/-- A byte of the serial line, of SEND's immediate, or of a byte-serial host link (R82, R101). -/
abbrev Byte := BitVec 8

/-- The five button inputs, in the order of the index i of 10_state.md R56. -/
inductive Button where
  | start
  | red
  | green
  | white
  | blue
  deriving DecidableEq, Repr, Inhabited

/-- The values of BUTTON_ID (10_state.md R51). Codes 6 and 7 are written by no step, so the type has no name for them. -/
inductive ButtonId where
  | none
  | start
  | red
  | green
  | white
  | blue
  deriving DecidableEq, Repr, Inhabited

/-- RX_MODE (10_state.md R43): CAPTURE waits for a start edge, COMPARE samples. -/
inductive RxMode where
  | capture
  | compare
  deriving DecidableEq, Repr, Inhabited

/-- LSTATE (10_state.md R49): ARMED enables all inputs, LOCKED only START. -/
inductive LatchState where
  | armed
  | locked
  deriving DecidableEq, Repr, Inhabited

/-- TIMER_TOPOLOGY (00_scope.md R7): a separate stopwatch counter, or one counter for both uses. -/
inductive Topology where
  | split
  | shared
  deriving DecidableEq, Repr, Inhabited

/-- GW_ORDER (00_scope.md R7, OPEN): which of Green and White the arbiter tests first. -/
inductive GwOrder where
  | greenFirst
  | whiteFirst
  deriving DecidableEq, Repr, Inhabited

end Sys2Proof
end

