-- ==== Sys2Proof/Syntax.lean ====
section
/-! DEFINITION. The command words as an inductive type, one constructor per row of spec/opcode_table.json
(30_encoding.md R102), and beside it the events, which have no encoding (R117). -/

namespace Sys2Proof

/-- The 15 commands of the opcode map (30_encoding.md R102). SEND's operand is the unsigned byte IMM8 (R101);
no other command has an operand. -/
inductive Instr where
  | nop
  | fltrd
  | tstart
  | tstop
  | tnow
  | tread
  | send (b : Byte)
  | recv
  | ustat
  | lpoll
  | lelap
  | lack
  | lzero
  | lclrf
  | iclr
  deriving DecidableEq, Repr, Inhabited

/-- The events: the steps of the agents other than HOST (30_encoding.md R117). They never come through the port. -/
inductive Event where
  | bclkTick
  | swclkTick
  | rxdSet (v : Bool)
  | press (b : Button)
  | release (b : Button)
  | arbitrate
  deriving DecidableEq, Repr, Inhabited

end Sys2Proof
end

