-- ==== Sys2Proof/Config.lean ====
section
/-! DEFINITION. The parameters of 00_scope.md R7, the inputs of a reset, whose turn it is, and the one free value. -/

namespace Sys2Proof

/-- The parameters of the block (00_scope.md R7). They are "fixed before reset and never change"
(70_reset_and_hazards.md R352). They are data that State carries, so a statement about every state is one about every
configuration (log 5). -/
structure Config where
  /-- TMR_W: the width of CNT, SWCNT, TXCCR, RXCCR and ELAPSED. -/
  tmrW : Nat
  /-- BAUD: the serial bit rate. -/
  baud : Nat
  /-- F_BCLK: the rate of BCLK, in Hz. -/
  fBclk : Nat
  /-- F_SWCLK: the rate of SWCLK, in Hz. Informative only: "No rule depends on it" (R151). -/
  fSwclk : Nat
  /-- BITP: the bit period in BCLK ticks. A parameter of its own (93_implementation_defined.md K7; log 22). -/
  bitp : Nat
  /-- HALFP: the half-bit period in BCLK ticks. A parameter of its own (K7; log 22). -/
  halfp : Nat
  /-- TIMER_TOPOLOGY. -/
  topology : Topology
  /-- GW_ORDER. -/
  gwOrder : GwOrder
  /-- TX_FRAME_BITS: bits per transmitted frame. -/
  txFrameBits : Nat
  /-- RX_DATA_BITS: data bits sampled per received frame. -/
  rxDataBits : Nat
  deriving DecidableEq, Repr

/-- RESP_W = max(16, TMR_W), the width of a response word (R7). -/
def Config.respW (c : Config) : Nat := max 16 c.tmrW

/-- BITP = floor(F_BCLK / BAUD) (R7). -/
def Config.bitpOf (fBclk baud : Nat) : Nat := fBclk / baud

/-- HALFP = floor(F_BCLK / (2 * BAUD)) (R7). -/
def Config.halfpOf (fBclk baud : Nat) : Nat := fBclk / (2 * baud)

/-- A configuration whose bit periods are those of its rates by the formulas of R7. -/
def Config.ofRates (c : Config) : Config :=
  { c with bitp := Config.bitpOf c.fBclk c.baud, halfp := Config.halfpOf c.fBclk c.baud }

/-- The reference column of R7, with BITP and HALFP by their formulas (`Config.ofRates`). F_SWCLK is "about 4096" there,
and GW_ORDER is OPEN with the reference reading GREEN_FIRST (log 5). -/
def Config.reference : Config :=
  Config.ofRates
    { tmrW := 16, baud := 9600, fBclk := 1000000, fSwclk := 4096, bitp := 0, halfp := 0, topology := .split,
      gwOrder := .greenFirst, txFrameBits := 10, rxDataBits := 8 }

/-- The value to which TXBITCNT is reloaded and reset, TX_FRAME_BITS in its 4 bits (R7, 10_state.md R37). -/
def Config.txReload (c : Config) : BitVec 4 := BitVec.ofNat 4 c.txFrameBits

/-- The value to which RXBITCNT is reloaded and reset, RX_DATA_BITS in its 4 bits (R7, 10_state.md R42). -/
def Config.rxReload (c : Config) : BitVec 4 := BitVec.ofNat 4 c.rxDataBits

/-- What a reset takes from outside the block: CAL_OK (70_reset_and_hazards.md R351), the levels the environment has
on the input pins (10_state.md R46, R47), and a draw for each element that reset leaves unspecified (R350). -/
structure Launch where
  calOk : Bool
  rxd : Bool
  btnPin : BitVec 5
  txccr : Nat
  txsr : BitVec 10
  rxccr : Nat
  rxsr : BitVec 8
  rxbuf : BitVec 8
  deriving DecidableEq, Repr, Inhabited

/-- The reset inputs of `State.reset`: calibrated (R7), the pins at the launch premise of R350 (log 8), and 0 for each
element whose reset value the spec leaves unspecified (log 7, DESIGN CHOICE). -/
def Launch.reference : Launch where
  calOk := true
  rxd := true
  btnPin := 0b11111
  txccr := 0
  txsr := 0
  rxccr := 0
  rxsr := 0
  rxbuf := 0

/-- Whose step comes next: HOST's, an event of another agent (00_scope.md R6), or a reset of the block
(60_exceptions.md R311; log 9). -/
inductive Turn where
  | host
  | event (e : Event)
  | reset (l : Launch)
  deriving DecidableEq, Repr, Inhabited

/-- FREE VALUE (log 2). "Any enabled step of any agent may be taken next" (R6): where State fixes no turn, the n-th open
choice of a turn is this, about which nothing is known. -/
opaque Config.freeTurn : Nat → Turn

end Sys2Proof
end

