-- ==== Sys2Proof/WellFormed.lean ====
section
/-! DEFINITION. Well-formedness: of a configuration (00_scope.md R8, one named check per constraint) and of an
instruction. -/

namespace Sys2Proof

/-- TMR_W >= 16 (R8). -/
def Config.tmrWOk (c : Config) : Bool := decide (16 ≤ c.tmrW)

/-- BITP >= 2 (R8). -/
def Config.bitpOk (c : Config) : Bool := decide (2 ≤ c.bitp)

/-- 1 <= HALFP < BITP (R8). -/
def Config.halfpOk (c : Config) : Bool := decide (1 ≤ c.halfp) && decide (c.halfp < c.bitp)

/-- BITP + HALFP < 2^TMR_W (R8). -/
def Config.rxSpanOk (c : Config) : Bool := decide (c.bitp + c.halfp < 2 ^ c.tmrW)

/-- 11 * BITP < 2^TMR_W (R8). -/
def Config.txSpanOk (c : Config) : Bool := decide (11 * c.bitp < 2 ^ c.tmrW)

/-- TX_FRAME_BITS is 10, the number that the frame, TXSR's width and the reload of TXBITCNT are written with
(30_encoding.md R115, 10_state.md R36, 43_uart_tx.md R223; log 22). -/
def Config.txFrameBitsOk (c : Config) : Bool := decide (c.txFrameBits = 10)

/-- RX_DATA_BITS is 8, the number that RXSR's width and the reload of RXBITCNT are written with (10_state.md R41,
44_uart_rx.md R253; log 22). -/
def Config.rxDataBitsOk (c : Config) : Bool := decide (c.rxDataBits = 8)

/-- The five constraints of R8, "A configuration outside these constraints is refused", and the two frame sizes that the
rules are written for (log 22). -/
def Config.ok (c : Config) : Bool :=
  c.tmrWOk && c.bitpOk && c.halfpOk && c.rxSpanOk && c.txSpanOk && c.txFrameBitsOk && c.rxDataBitsOk

/-- An instruction's well-formedness. The operand of SEND is a byte by its type and "b = 0x00 and b = 0xFF are legal"
(43_uart_tx.md R221), and no other command has an operand (30_encoding.md R101), so the type leaves nothing to refuse. -/
def Instr.wellFormed : Instr → Bool
  | .nop => true
  | .fltrd => true
  | .tstart => true
  | .tstop => true
  | .tnow => true
  | .tread => true
  | .send _ => true
  | .recv => true
  | .ustat => true
  | .lpoll => true
  | .lelap => true
  | .lack => true
  | .lzero => true
  | .lclrf => true
  | .iclr => true

end Sys2Proof
end

