-- ==== Sys2Proof/Decode.lean ====
section
/-! DEFINITION. The decoder of command words, total on all 65536 words and rejecting by name, and after it the encoder
(30_encoding.md R100 to R103). -/

namespace Sys2Proof

/-- Why a word is illegal (the cases of 30_encoding.md R103). The spec gives them one fault, ILLEGAL_CMD; the names are
the model's (log 14). `incomplete` is only of a byte-serial link that ends inside a word. -/
inductive DecodeError where
  | unassignedGroup
  | unassignedFunction
  | nonzeroImmediate
  | incomplete
  deriving DecidableEq, Repr

/-- GRP = word[15:12] (R100). -/
def grp (w : Word) : Nat := (w.extractLsb' 12 4).toNat

/-- FN = word[11:8] (R100). -/
def fn (w : Word) : Nat := (w.extractLsb' 8 4).toNat

/-- IMM8 = word[7:0] (R100). -/
def imm8 (w : Word) : Byte := w.extractLsb' 0 8

/-- IMM8 is "zero in every other command" than SEND (R100). -/
def noImm (w : Word) (i : Instr) : Except DecodeError Instr :=
  if imm8 w = 0 then .ok i else .error .nonzeroImmediate

/-- The opcode map (R102), and for every other word the case of R103 it falls under. -/
def decode (w : Word) : Except DecodeError Instr :=
  match grp w with
  | 0 =>
    match fn w with
    | 0 => noImm w .nop
    | 1 => noImm w .fltrd
    | _ => .error .unassignedFunction
  | 1 =>
    match fn w with
    | 0 => noImm w .tstart
    | 1 => noImm w .tstop
    | 2 => noImm w .tnow
    | 3 => noImm w .tread
    | _ => .error .unassignedFunction
  | 2 =>
    match fn w with
    | 0 => .ok (.send (imm8 w))
    | 1 => noImm w .recv
    | 2 => noImm w .ustat
    | _ => .error .unassignedFunction
  | 3 =>
    match fn w with
    | 0 => noImm w .lpoll
    | 1 => noImm w .lelap
    | 2 => noImm w .lack
    | 3 => noImm w .lzero
    | 4 => noImm w .lclrf
    | 5 => noImm w .iclr
    | _ => .error .unassignedFunction
  | _ => .error .unassignedGroup

/-- The instruction of an opcode-table row's word, numbered as opcode_table.json numbers it: one 16-bit word, every
bit above `nbits` zero (log 19). -/
def decodeTableWord (nbits w : Nat) : Option Instr :=
  match decode (BitVec.ofNat 16 (w % 2 ^ nbits)) with
  | .ok i => some i
  | .error _ => none

/-- The word of an instruction, from the table of R102. -/
def encode : Instr → Word
  | .nop => 0x0000
  | .fltrd => 0x0100
  | .tstart => 0x1000
  | .tstop => 0x1100
  | .tnow => 0x1200
  | .tread => 0x1300
  | .send b => 0x2000 ||| b.setWidth 16
  | .recv => 0x2100
  | .ustat => 0x2200
  | .lpoll => 0x3000
  | .lelap => 0x3100
  | .lack => 0x3200
  | .lzero => 0x3300
  | .lclrf => 0x3400
  | .iclr => 0x3500

/-- A command word on a host link that carries bytes: the low byte first (20_memory.md R82). -/
def linkBytes (w : Word) : List Byte := [w.extractLsb' 0 8, w.extractLsb' 8 8]

/-- Decode the next command word of a byte-serial link, low byte first (R82), and give the bytes after it. -/
def decodeBytes : List Byte → Except DecodeError (Instr × List Byte)
  | lo :: hi :: rest =>
    match decode (hi ++ lo) with
    | .ok i => .ok (i, rest)
    | .error e => .error e
  | _ => .error .incomplete

/-- The opcode map as a list of rows (R102): mask, match, and the instruction a word of the row stands for. -/
def opcodeMap : List (Word × Word × (Word → Instr)) :=
  [ (0xFFFF, 0x0000, fun _ => .nop)
  , (0xFFFF, 0x0100, fun _ => .fltrd)
  , (0xFFFF, 0x1000, fun _ => .tstart)
  , (0xFFFF, 0x1100, fun _ => .tstop)
  , (0xFFFF, 0x1200, fun _ => .tnow)
  , (0xFFFF, 0x1300, fun _ => .tread)
  , (0xFF00, 0x2000, fun w => .send (imm8 w))
  , (0xFFFF, 0x2100, fun _ => .recv)
  , (0xFFFF, 0x2200, fun _ => .ustat)
  , (0xFFFF, 0x3000, fun _ => .lpoll)
  , (0xFFFF, 0x3100, fun _ => .lelap)
  , (0xFFFF, 0x3200, fun _ => .lack)
  , (0xFFFF, 0x3300, fun _ => .lzero)
  , (0xFFFF, 0x3400, fun _ => .lclrf)
  , (0xFFFF, 0x3500, fun _ => .iclr) ]

end Sys2Proof
end

