-- ==== Sys2Proof/Machine/State.lean ====
section
/-! DEFINITION. The state of QG-CORE (10_state.md R30) with the model's own fields beside it, the reasons a step can
stop, and reset (70_reset_and_hazards.md R350, R351). -/

namespace Sys2Proof.Machine

/-- Every state element of 10_state.md R30 under its own name, then the model's own fields. The TMR_W-bit elements are
"an unsigned integer of its stated width" (00_scope.md R9): natural numbers that every write reduces modulo
2^TMR_W (log 11). -/
structure State where
  /-- The parameters (R7). No step writes them (R352; log 5). -/
  cfg : Config
  /-- CNT (R31). -/
  cnt : Nat
  /-- CNT_RUN (R32). -/
  cntRun : Bool
  /-- SWCNT (R33); used only when SPLIT (log 12). -/
  swcnt : Nat
  /-- SW_RUN (R34) when SPLIT; when SHARED the element is the alias CNT_RUN and this field is unused (log 12). -/
  swRun : Bool
  /-- TXCCR (R35). -/
  txccr : Nat
  /-- TXSR (R36). -/
  txsr : BitVec 10
  /-- TXBITCNT (R37). -/
  txbitcnt : BitVec 4
  /-- TX_IE (R38), also the busy flag. -/
  txIe : Bool
  /-- TXD (R39), the serial output line. -/
  txd : Bool
  /-- RXCCR (R40). -/
  rxccr : Nat
  /-- RXSR (R41). -/
  rxsr : BitVec 8
  /-- RXBITCNT (R42). -/
  rxbitcnt : BitVec 4
  /-- RX_MODE (R43). -/
  rxMode : RxMode
  /-- RXBUF (R44). -/
  rxbuf : BitVec 8
  /-- RXAVAIL (R45). -/
  rxavail : Bool
  /-- RXD (R46), the serial input line. -/
  rxd : Bool
  /-- BTN_PIN (R47), bit i for the input of index i, 0 is pressed. -/
  btnPin : BitVec 5
  /-- IFG (R48), bit i for the input of index i. -/
  ifg : BitVec 5
  /-- LSTATE (R49). -/
  lstate : LatchState
  /-- SEM (R50). -/
  sem : Bool
  /-- BUTTON_ID (R51). -/
  buttonId : ButtonId
  /-- ELAPSED (R52). -/
  elapsed : Nat
  /-- IND (R53), the indicator outputs: bit 0 red, 1 green, 2 white, 3 blue. -/
  ind : BitVec 4
  /-- FAULT_ILL (R54), sticky. -/
  faultIll : Bool
  /-- HALTED (R55). -/
  halted : Bool
  /-- The model's own: HOST's command words still to be issued, in program order (R6; log 1). -/
  program : List Word
  /-- The model's own: the response word of HOST's last turn (R81, R105), none where it gave none (log 4). -/
  resp : Option Nat
  /-- The model's own: the turns already fixed, the next one first (R6, R87; log 2). -/
  turns : List Turn
  /-- The model's own: the index of the next free turn (log 2). -/
  turnNo : Nat
  deriving DecidableEq, Repr

/-- Why the machine stops with a fault. -/
inductive Fault where
  /-- HALT (60_exceptions.md R311): raised by every turn but a reset while HALTED = 1. Safe: the spec gives no agent a
  step there. -/
  | halt
  deriving DecidableEq, Repr

/-- Why a step has no meaning. -/
inductive Refusal where
  /-- An arm of exec that has no meaning yet. No arm uses it. Safe. -/
  | notModelled (mnemonic : String)
  /-- Raised by every turn while the parameters break a constraint of 00_scope.md R8 ("the model has no meaning for
  it"), or have a frame size that the rules are not written for (log 22). Safe. -/
  | configOutOfRange
  deriving DecidableEq, Repr

/-- Reset of a block with parameters `c` and reset inputs `l` (70_reset_and_hazards.md R350, R351). The draws of
TMR_W-bit elements are taken modulo 2^TMR_W. -/
def State.launch (c : Config) (l : Launch) : State where
  cfg := c
  cnt := 0
  cntRun := true
  swcnt := 0
  swRun := true
  txccr := l.txccr % 2 ^ c.tmrW
  txsr := l.txsr
  txbitcnt := c.txReload
  txIe := false
  txd := true
  rxccr := l.rxccr % 2 ^ c.tmrW
  rxsr := l.rxsr
  rxbitcnt := c.rxReload
  rxMode := .capture
  rxbuf := l.rxbuf
  rxavail := false
  rxd := l.rxd
  btnPin := l.btnPin
  ifg := 0
  lstate := .locked
  sem := false
  buttonId := .none
  elapsed := 0
  ind := 0
  faultIll := false
  halted := !l.calOk
  program := []
  resp := none
  turns := []
  turnNo := 0

/-- The machine right after reset: the reference parameters of R7 and the reference reset inputs (log 5, 7, 8). -/
def State.reset : State := State.launch Config.reference Launch.reference

end Sys2Proof.Machine
end

