-- ==== Sys2Proof/Machine/Ops.lean ====
section
/-! DEFINITION. The operations that several instructions and events share: counter arithmetic, the stopwatch accessors,
the button indices and flag bits, the gate before every step, the end of a command, raising a fault and reset, and
whose turn is next. -/

namespace Sys2Proof.Machine

/-- `a +_TMR_W b` (00_scope.md R9): every counter and compare-target addition. -/
def addT (c : Config) (a b : Nat) : Nat := (a + b) % 2 ^ c.tmrW

/-- The index i of a button input (10_state.md R56). -/
def buttonIndex : Button → Nat
  | .start => 0
  | .red => 1
  | .green => 2
  | .white => 3
  | .blue => 4

/-- The bit of BTN_PIN and of IFG that belongs to a button input (R56). -/
def buttonBit (b : Button) : BitVec 5 := 1#5 <<< buttonIndex b

/-- BTN_PIN[i] (R47). -/
def pinHigh (b : Button) (s : State) : Bool := s.btnPin.getLsbD (buttonIndex b)

/-- IFG[i] (R48). -/
def flagSet (b : Button) (s : State) : Bool := s.ifg.getLsbD (buttonIndex b)

/-- BUTTON_ID = i + 1 (R51, R56). -/
def idOfButton : Button → ButtonId
  | .start => .start
  | .red => .red
  | .green => .green
  | .white => .white
  | .blue => .blue

/-- The indicator of a colour input is IND[i - 1], and "Start has no indicator" (R53, R56). -/
def indicatorBit : Button → BitVec 4
  | .start => 0b0000
  | .red => 0b0001
  | .green => 0b0010
  | .white => 0b0100
  | .blue => 0b1000

/-- `sw_value()` (41_timer.md R152). -/
def swValue (s : State) : Nat :=
  match s.cfg.topology with
  | .split => s.swcnt
  | .shared => s.cnt

/-- SW_RUN, an alias of CNT_RUN when SHARED (10_state.md R34). -/
def swRunning (s : State) : Bool :=
  match s.cfg.topology with
  | .split => s.swRun
  | .shared => s.cntRun

/-- `sw_start()` (R153). -/
def swStart (s : State) : State :=
  match s.cfg.topology with
  | .split => { s with swcnt := 0, swRun := true }
  | .shared => { s with cnt := 0, cntRun := true }

/-- `sw_stop()` (R154). -/
def swStop (s : State) : State :=
  match s.cfg.topology with
  | .split => { s with swRun := false }
  | .shared => { s with cntRun := false }

/-- The gate before every step but a reset: a configuration outside R8 has no meaning (00_scope.md R8), and while
HALTED = 1 no agent has a step (60_exceptions.md R311, 40_block.md R142). -/
def guarded (s : State) (k : Host.Outcome State Fault Refusal) : Host.Outcome State Fault Refusal :=
  if s.cfg.ok = false then .refused .configOutOfRange
  else if s.halted = true then .fault .halt
  else k

/-- A command takes its step: HOST receives the response and goes on to its next word (R81, R105; log 1, 4). The
response is `zext_RESP_W` of an unsigned value, which is that value (R9; log 13). -/
def respond (v : Nat) (s : State) : State :=
  { s with resp := some v, program := s.program.tail }

/-- A command is held: it has no step, it returns nothing, and HOST stays at it (00_scope.md R10, 30_encoding.md R105;
log 4). -/
def hold (s : State) : State := { s with resp := none }

/-- One command: behind the gate, its response `val` is read from the state before, its effect `act` is applied, and it
completes (40_block.md R142). -/
def command (s : State) (act : State → State) (val : State → Nat) : Host.Outcome State Fault Refusal :=
  guarded s (.next (respond (val s) (act s)))

/-- The fault codes of 60_exceptions.md R310 and R311. -/
inductive FaultCode where
  | illegalCmd
  | halt
  deriving DecidableEq, Repr

/-- The number of a fault code (R310, R311). -/
def faultNumber : FaultCode → Nat
  | .illegalCmd => 1
  | .halt => 2

/-- `raise Fault(code)` records a fault (00_scope.md R10): ILLEGAL_CMD sets the sticky FAULT_ILL (R310), HALT sets HALTED
(R311, raised at reset). It saves no state, changes no mode and transfers control nowhere (R317). -/
def raiseFault : FaultCode → State → State
  | .illegalCmd, s => { s with faultIll := true }
  | .halt, s => { s with halted := true }

/-- The illegal-word step (R310): raise ILLEGAL_CMD, respond 0, and nothing else. -/
def illegalCommand (s : State) : Host.Outcome State Fault Refusal :=
  command s (raiseFault .illegalCmd) (fun _ => 0)

/-- A reset of the running block, the only way out of HALT (R311) and the only thing that clears FAULT_ILL
(10_state.md R54): every element as R350 and R351 say. HOST's program and the turns are not the block's and stay
(log 9). -/
def relaunch (l : Launch) (s : State) : State :=
  { State.launch s.cfg l with program := s.program, turns := s.turns, turnNo := s.turnNo }

/-- A reset turn: it needs no HALTED = 0, and a configuration outside R8 is refused (R8; log 9). -/
def resetTurn (l : Launch) (s : State) : Host.Outcome State Fault Refusal :=
  if s.cfg.ok = false then .refused .configOutOfRange else .next (relaunch l s)

/-- The turn taken next: the first fixed one, or else the free value (00_scope.md R6; log 2). -/
def nextTurn (s : State) : Turn :=
  match s.turns with
  | t :: _ => t
  | [] => Config.freeTurn s.turnNo

/-- The state once the next turn has been taken from the fixed ones, or from the free ones. -/
def takeTurn (s : State) : State :=
  match s.turns with
  | _ :: ts => { s with turns := ts }
  | [] => { s with turnNo := s.turnNo + 1 }

/-- The word HOST presents at the command port: the first of its program (R6, R81). -/
def presentedWord (s : State) : Option Word := s.program.head?

end Sys2Proof.Machine
end

