-- ==== Sys2Proof/Machine/Flags.lean ====
section
/-! DEFINITION. The status words: how USTAT, LPOLL and FLTRD lay out the flags and the status elements
(30_encoding.md R106 to R110). -/

namespace Sys2Proof.Machine

/-- RX_MODE as a bit: 0 CAPTURE, 1 COMPARE (10_state.md R43). -/
def rxModeBit : RxMode → BitVec 1
  | .capture => 0
  | .compare => 1

/-- LSTATE as a bit: 0 ARMED, 1 LOCKED (10_state.md R49). -/
def lstateBit : LatchState → BitVec 1
  | .armed => 0
  | .locked => 1

/-- The code of a BUTTON_ID (10_state.md R51). -/
def buttonCode : ButtonId → BitVec 3
  | .none => 0
  | .start => 1
  | .red => 2
  | .green => 3
  | .white => 4
  | .blue => 5

/-- The USTAT layout (R106; 44_uart_rx.md R256):
`RXBITCNT ++ TXBITCNT ++ 0b000 ++ RXD ++ TXD ++ RX_MODE ++ RXAVAIL ++ TX_IE`. -/
def ustatWord (s : State) : BitVec 16 :=
  s.rxbitcnt ++ s.txbitcnt ++ 0b000#3 ++ BitVec.ofBool s.rxd ++ BitVec.ofBool s.txd ++ rxModeBit s.rxMode
    ++ BitVec.ofBool s.rxavail ++ BitVec.ofBool s.txIe

/-- The LPOLL layout (R107, R109; 42_latch.md R189): bit 15 is 0, then
`SW_RUN ++ IND ++ IFG ++ LSTATE ++ BUTTON_ID ++ SEM`. -/
def lpollWord (s : State) : BitVec 16 :=
  0b0#1 ++ BitVec.ofBool (swRunning s) ++ s.ind ++ s.ifg ++ lstateBit s.lstate ++ buttonCode s.buttonId
    ++ BitVec.ofBool s.sem

/-- The FLTRD response: bit 0 is FAULT_ILL, every other bit 0 (R110). -/
def fltrdWord (s : State) : BitVec 16 := (BitVec.ofBool s.faultIll).setWidth 16

end Sys2Proof.Machine
end

