-- ==== Sys2Proof/Machine/Block.lean ====
section
/-! DEFINITION. The block control commands NOP and FLTRD (40_block.md). -/

namespace Sys2Proof.Machine

/-- NOP (40_block.md R140): `resp <- 0`. -/
def execNop (s : State) : Host.Outcome State Fault Refusal :=
  command s id (fun _ => 0)

/-- FLTRD (R141): `resp <- zext_RESP_W(FAULT_ILL)`. It does not clear the flag. -/
def execFltrd (s : State) : Host.Outcome State Fault Refusal :=
  command s id (fun s => (fltrdWord s).toNat)

end Sys2Proof.Machine
end

