-- ==== Sys2Proof/Machine/Latch.lean ====
section
/-! DEFINITION. The button latch: the edges, the arbiter and the six latch commands (42_latch.md). -/

namespace Sys2Proof.Machine

/-- `Enable(i)` (42_latch.md R180). -/
def inputEnabled (b : Button) (s : State) : Bool :=
  match b, s.lstate with
  | .start, _ => true
  | _, .armed => true
  | _, .locked => false

/-- PRESS(i) (R181), of an input whose pin is high: the edge sets IFG[i] only when the input is enabled. -/
def press (b : Button) (s : State) : State :=
  { s with
    btnPin := s.btnPin &&& ~~~ buttonBit b
    ifg := if inputEnabled b s then s.ifg ||| buttonBit b else s.ifg }

/-- RELEASE(i) (R182), of an input whose pin is low. -/
def release (b : Button) (s : State) : State := { s with btnPin := s.btnPin ||| buttonBit b }

/-- PRIO (R183): `[START, BLUE, RED, G1, G2]`, where GW_ORDER orders Green and White. -/
def priorityOrder (c : Config) : List Button :=
  match c.gwOrder with
  | .greenFirst => [.start, .blue, .red, .green, .white]
  | .whiteFirst => [.start, .blue, .red, .white, .green]

/-- `w = first i in PRIO with IFG[i] = 1` (R184). None exactly when IFG = 0. -/
def winner (s : State) : Option Button := (priorityOrder s.cfg).find? (fun b => flagSet b s)

/-- Start acceptance (R186): the snapshot is taken before the stopwatch restarts. -/
def acceptStart (s : State) : State :=
  { swStart s with
    elapsed := swValue s
    lstate := .armed
    ind := 0
    buttonId := .start
    sem := true
    ifg := 0 }

/-- Colour acceptance (R187): the stopwatch stops, and the snapshot is taken after. Other IND bits stay
(92_eei_decisions.md D34). -/
def acceptColour (b : Button) (s : State) : State :=
  { swStop s with
    elapsed := swValue (swStop s)
    buttonId := idOfButton b
    ind := s.ind ||| indicatorBit b
    lstate := .locked
    sem := true
    ifg := 0 }

/-- ARBITRATE (R184), with some IFG bit set: it discards while SEM = 1 (R185), and else accepts the winner
(R186, R187). -/
def arbitrate (s : State) : State :=
  match winner s with
  | none => s
  | some w =>
    if s.sem then { s with ifg := 0 }
    else
      match w with
      | .start => acceptStart s
      | .red => acceptColour .red s
      | .green => acceptColour .green s
      | .white => acceptColour .white s
      | .blue => acceptColour .blue s

/-- LPOLL (R189): the layout of 30_encoding.md R107. It does not clear SEM. -/
def execLpoll (s : State) : Host.Outcome State Fault Refusal :=
  command s id (fun s => (lpollWord s).toNat)

/-- LELAP (R190): `resp <- zext_RESP_W(ELAPSED)`. -/
def execLelap (s : State) : Host.Outcome State Fault Refusal :=
  command s id (fun s => s.elapsed)

/-- LACK (R191): `SEM <- 0; resp <- 0`. -/
def execLack (s : State) : Host.Outcome State Fault Refusal :=
  command s (fun s => { s with sem := false }) (fun _ => 0)

/-- LZERO (R192): `ELAPSED <- 0; resp <- 0`. -/
def execLzero (s : State) : Host.Outcome State Fault Refusal :=
  command s (fun s => { s with elapsed := 0 }) (fun _ => 0)

/-- LCLRF (R193): `IFG <- 0; resp <- 0`. -/
def execLclrf (s : State) : Host.Outcome State Fault Refusal :=
  command s (fun s => { s with ifg := 0 }) (fun _ => 0)

/-- ICLR (R194): `IND <- 0b0000; resp <- 0`. -/
def execIclr (s : State) : Host.Outcome State Fault Refusal :=
  command s (fun s => { s with ind := 0 }) (fun _ => 0)

end Sys2Proof.Machine
end

