-- ==== Sys2Proof/Machine/Timer.lean ====
section
/-! DEFINITION. The Timer Resource's commands, and the stopwatch tick (41_timer.md). -/

namespace Sys2Proof.Machine

/-- TSTART (41_timer.md R155): `sw_start(); resp <- 0`. -/
def execTstart (s : State) : Host.Outcome State Fault Refusal :=
  command s swStart (fun _ => 0)

/-- TSTOP (R156): `sw_stop(); resp <- 0`. -/
def execTstop (s : State) : Host.Outcome State Fault Refusal :=
  command s swStop (fun _ => 0)

/-- TNOW (R157): `resp <- zext_RESP_W(CNT)`, whichever topology is set. -/
def execTnow (s : State) : Host.Outcome State Fault Refusal :=
  command s id (fun s => s.cnt)

/-- TREAD (R158): `resp <- zext_RESP_W(sw_value())`. -/
def execTread (s : State) : Host.Outcome State Fault Refusal :=
  command s id swValue

/-- SWCLK_TICK (R151), of a block with TIMER_TOPOLOGY = SPLIT. -/
def swclkTick (s : State) : State :=
  if s.swRun then { s with swcnt := addT s.cfg s.swcnt 1 } else s

end Sys2Proof.Machine
end

