-- ==== Sys2Proof/Machine/UartRx.lean ====
section
/-! DEFINITION. The UART receiver: RECV, USTAT, the RXD change with its start-edge capture, and the RX compare action with
its publication (44_uart_rx.md). -/

namespace Sys2Proof.Machine

/-- RECV (44_uart_rx.md R255): `resp <- zext_RESP_W(RXBUF); RXAVAIL <- 0`. It never holds. -/
def execRecv (s : State) : Host.Outcome State Fault Refusal :=
  command s (fun s => { s with rxavail := false }) (fun s => s.rxbuf.toNat)

/-- USTAT (R256): the layout of 30_encoding.md R106. -/
def execUstat (s : State) : Host.Outcome State Fault Refusal :=
  command s id (fun s => (ustatWord s).toNat)

/-- The start-edge capture (R251): the target is the middle of data bit 0 (90_conflicts.md C2). -/
def startEdgeCapture (s : State) : State :=
  { s with
    rxccr := addT s.cfg (addT s.cfg s.cnt s.cfg.bitp) s.cfg.halfp
    rxMode := .compare }

/-- RXD_SET(v) (R250): a 1-to-0 change in CAPTURE is captured in the same step. -/
def rxdSet (v : Bool) (s : State) : State :=
  if s.rxd = true ∧ v = false ∧ s.rxMode = .capture then { startEdgeCapture s with rxd := v } else { s with rxd := v }

/-- Publication (R253): the byte goes to the single slot, whether or not the one before was read (R254). -/
def publish (s : State) : State :=
  { s with
    rxbuf := s.rxsr
    rxavail := true
    rxbitcnt := s.cfg.rxReload
    rxMode := .capture }

/-- The sample and shift of the RX compare action (R252): the level of RXD enters RXSR at bit 7. -/
def rxSample (s : State) : State :=
  { s with
    rxsr := (s.rxsr >>> 1) ||| ((BitVec.ofBool s.rxd).setWidth 8 <<< 7)
    rxccr := addT s.cfg s.rxccr s.cfg.bitp
    rxbitcnt := s.rxbitcnt - 1 }

/-- The RX compare action (R252): sample, and publish when the bit counter just written is 0. -/
def rxCompareAction (s : State) : State :=
  if (rxSample s).rxbitcnt = 0 then publish (rxSample s) else rxSample s

end Sys2Proof.Machine
end

