-- ==== Sys2Proof/Machine/Operands.lean ====
section
/-! DEFINITION. The one operand form, IMM8 as an unsigned byte (30_encoding.md R101), and the frame that SEND builds from
it (R115). -/

namespace Sys2Proof.Machine

/-- `frame(b) = (zext_10(b) << 1) | 0x200` (30_encoding.md R115, 43_uart_tx.md R220; 90_conflicts.md C1). -/
def frame (b : Byte) : BitVec 10 := (b.setWidth 10 <<< 1) ||| 0x200#10

/-- Slot k of a byte's frame as the line carries it (R83, R115): `frame(b)[k]`. -/
def slot (b : Byte) (k : Nat) : Bool := (frame b).getLsbD k

end Sys2Proof.Machine
end

