-- ==== Sys2Proof/Machine/UartTx.lean ====
section
/-! DEFINITION. The UART transmitter: SEND and the TX compare action (43_uart_tx.md). -/

namespace Sys2Proof.Machine

/-- What an accepted SEND writes (43_uart_tx.md R221). TXBITCNT and TXD are not written. -/
def loadFrame (b : Byte) (s : State) : State :=
  { s with txccr := addT s.cfg s.cnt s.cfg.bitp, txsr := frame b, txIe := true }

/-- SEND #b (R221): it holds while TX_IE = 1 (R222), and otherwise starts the frame and responds 0. -/
def execSend (b : Byte) (s : State) : Host.Outcome State Fault Refusal :=
  if s.txIe then guarded s (.next (hold s)) else command s (loadFrame b) (fun _ => 0)

/-- The TX compare action (R223). The 10th action drives the stop bit, clears TX_IE and reloads TXBITCNT. -/
def txCompareAction (s : State) : State :=
  let n := s.txbitcnt - 1
  { s with
    txccr := addT s.cfg s.txccr s.cfg.bitp
    txd := s.txsr.getLsbD 0
    txsr := s.txsr >>> 1
    txbitcnt := if n = 0 then s.cfg.txReload else n
    txIe := if n = 0 then false else s.txIe }

end Sys2Proof.Machine
end

