-- ==== Sys2Proof/Machine/Dispatch.lean ====
section
/-! DEFINITION. Each command's meaning, one arm per constructor of Instr. -/

namespace Sys2Proof.Machine

/-- A decoded command's step at the command port. -/
def exec (i : Instr) (s : State) : Host.Outcome State Fault Refusal :=
  match i with
  | .nop => Sys2Proof.Machine.execNop s
  | .fltrd => Sys2Proof.Machine.execFltrd s
  | .tstart => Sys2Proof.Machine.execTstart s
  | .tstop => Sys2Proof.Machine.execTstop s
  | .tnow => Sys2Proof.Machine.execTnow s
  | .tread => Sys2Proof.Machine.execTread s
  | .send b => Sys2Proof.Machine.execSend b s
  | .recv => Sys2Proof.Machine.execRecv s
  | .ustat => Sys2Proof.Machine.execUstat s
  | .lpoll => Sys2Proof.Machine.execLpoll s
  | .lelap => Sys2Proof.Machine.execLelap s
  | .lack => Sys2Proof.Machine.execLack s
  | .lzero => Sys2Proof.Machine.execLzero s
  | .lclrf => Sys2Proof.Machine.execLclrf s
  | .iclr => Sys2Proof.Machine.execIclr s

end Sys2Proof.Machine
end

