-- ==== Sys2Proof/Machine/Events.lean ====
section
/-! DEFINITION. The bit-clock tick with its compare actions (41_timer.md R150), and the events of 30_encoding.md R117 as
steps of the block. -/

namespace Sys2Proof.Machine

/-- The increment of CNT (R150). -/
def countTick (s : State) : State := { s with cnt := addT s.cfg s.cnt 1 }

/-- The TX channel of a tick: a match with the new CNT while TX_IE = 1 performs the action (R150, R159). -/
def txChannel (s : State) : State := if s.txIe = true ∧ s.cnt = s.txccr then txCompareAction s else s

/-- The RX channel of a tick: a match with the new CNT while in COMPARE performs the action (R150, R159). -/
def rxChannel (s : State) : State := if s.rxMode = .compare ∧ s.cnt = s.rxccr then rxCompareAction s else s

/-- BCLK_TICK (R150): nothing while CNT_RUN = 0; else CNT advances, and then the TX channel before the RX channel. -/
def bclkTick (s : State) : State := if s.cntRun then rxChannel (txChannel (countTick s)) else s

/-- Whether an event has a step, apart from HALTED (R150, R151, R181, R182, R184, R250). -/
def eventEnabled (e : Event) (s : State) : Bool :=
  match e with
  | .bclkTick => true
  | .swclkTick => decide (s.cfg.topology = .split)
  | .rxdSet _ => true
  | .press b => pinHigh b s
  | .release b => !pinHigh b s
  | .arbitrate => decide (s.ifg ≠ 0)

/-- The effect of an event that has a step (R117). -/
def eventEffect (e : Event) (s : State) : State :=
  match e with
  | .bclkTick => bclkTick s
  | .swclkTick => swclkTick s
  | .rxdSet v => rxdSet v s
  | .press b => press b s
  | .release b => release b s
  | .arbitrate => arbitrate s

/-- An event: its effect if it has a step, and the block as it is if it has none (log 3). -/
def runEvent (e : Event) (s : State) : State := if eventEnabled e s then eventEffect e s else s

/-- An event's turn, behind the gate of HALTED = 0 (R311). -/
def eventTurn (e : Event) (s : State) : Host.Outcome State Fault Refusal := guarded s (.next (runEvent e s))

end Sys2Proof.Machine
end

