-- ==== Sys2Proof/Machine/Port.lean ====
section
/-! DEFINITION. HOST's turn at the command port, and a turn of any agent. -/

namespace Sys2Proof.Machine

/-- HOST's turn: the word it presents is decoded and takes its command's step, or the illegal-word step if no row
matches (40_block.md R142). A HOST with no word left has no step (70_reset_and_hazards.md R353; log 3). -/
def hostTurn (s : State) : Host.Outcome State Fault Refusal :=
  match presentedWord s with
  | none => guarded s (.next s)
  | some w =>
    match decode w with
    | .ok i => exec i s
    | .error _ => illegalCommand s

/-- One turn (00_scope.md R6, R11). -/
def runTurn (t : Turn) (s : State) : Host.Outcome State Fault Refusal :=
  match t with
  | .host => hostTurn s
  | .event e => eventTurn e s
  | .reset l => resetTurn l s

end Sys2Proof.Machine
end

