-- ==== Sys2Proof/Machine/Step.lean ====
section
/-! DEFINITION. One step of the machine, and where a command word is placed so that the next step runs it. -/

namespace Sys2Proof.Machine

/-- One step: the next turn is taken and run (00_scope.md R6, 20_memory.md R87). -/
def step (s : State) : Host.Outcome State Fault Refusal := runTurn (nextTurn s) (takeTurn s)

/-- The state in which HOST presents the command word with bits `w` at the very next step: the word stands first in
HOST's program and the next turn is HOST's (log 1). -/
def State.withFetchWord (s : State) (nbits w : Nat) : State :=
  { s with program := BitVec.ofNat 16 (w % 2 ^ nbits) :: s.program, turns := .host :: s.turns }

end Sys2Proof.Machine
end

