-- ==== Sys2Proof/Machine/HostLoop.lean ====
section
/-! DEFINITION. The reference host program, the Game Controller Loop of 45_host_loop.md: its arithmetic, its wire messages,
its delay draw, and the loop itself as phases. It is software outside the block and no part of State (00_scope.md R2); the
composition with the block is in Console.lean. -/

namespace Sys2Proof.Machine

/-- A place in the reference host's boot and loop (R281 to R284): where an echo may sit (R288). -/
inductive HostPoint where
  | banner
  | waitSem
  | dispatch
  | sendGo
  | readSeed
  | draw
  | delay
  | clearIndicators
  | restart
  | readElapsed
  | sendReport
  | settleWait
  | settleZero
  | settleAck
  | settleClear
  deriving DecidableEq, Repr

/-- The host's own parameters (00_scope.md R7, 45_host_loop.md R281, R288): the banner's lines, of which the source gives
no byte; MS_NUM and MS_DEN; the bounds of the round-start delay and whether the lower one is admitted (OPEN); the settle
delay (OPEN); and the places of the loop where the host echoes, none for a host without an echo (log 16). -/
structure HostConfig where
  bannerLines : List (List Byte)
  msNum : Nat
  msDen : Nat
  delayLo : Nat
  delayHi : Nat
  delayIncl : Bool
  settleMs : Nat
  echoAt : List HostPoint
  deriving DecidableEq, Repr

/-- The reference column of R7. What it leaves OPEN, and what the source does not give, are arguments. -/
def HostConfig.reference (bannerLines : List (List Byte)) (delayIncl : Bool) (settleMs : Nat) (echoAt : List HostPoint) :
    HostConfig where
  bannerLines := bannerLines
  msNum := 244
  msDen := 1000
  delayLo := 500
  delayHi := 2000
  delayIncl := delayIncl
  settleMs := settleMs
  echoAt := echoAt

/-- `ms = floor(ticks * MS_NUM / MS_DEN)`, in unbounded integers, multiplying first (45_host_loop.md R284, R285). -/
def msOfTicks (h : HostConfig) (t : Nat) : Nat := t * h.msNum / h.msDen

/-- The ASCII code of a decimal digit (R284; 93_implementation_defined.md G3). -/
def digitByte (d : Nat) : Byte := BitVec.ofNat 8 (0x30 + d)

/-- Decimal digits, most significant first; the first argument bounds their number. -/
def decimalFrom : Nat → Nat → List Byte
  | 0, n => [digitByte (n % 10)]
  | fuel + 1, n => if n < 10 then [digitByte n] else decimalFrom fuel (n / 10) ++ [digitByte (n % 10)]

/-- The decimal ASCII digits of a number, without leading zeros, and `0` for 0 (R284; 92_eei_decisions.md D33). -/
def decimalBytes (n : Nat) : List Byte := decimalFrom n n

/-- The colour tag of a winner: R, G, W or B (R284). -/
def colourTag : ButtonId → Option Byte
  | .none => none
  | .start => none
  | .red => some 0x52
  | .green => some 0x47
  | .white => some 0x57
  | .blue => some 0x42

/-- The bytes `_ms_` (R284). -/
def msMark : List Byte := [0x5F, 0x6D, 0x73, 0x5F]

/-- The result message of a colour winner: the digits of the milliseconds, `_ms_`, the colour tag, `*` (R284). -/
def reportBytes (h : HostConfig) (id : ButtonId) (ticks : Nat) : Option (List Byte) :=
  (colourTag id).map fun tag => decimalBytes (msOfTicks h ticks) ++ msMark ++ [tag, 0x2A]

/-- The round-start marker `Go...!_` and a carriage return (R283). -/
def goBytes : List Byte := [0x47, 0x6F, 0x2E, 0x2E, 0x2E, 0x21, 0x5F, 0x0D]

/-- The banner's bytes: each of its lines, ended by CR LF (R281; 91_not_in_source.md N10). -/
def bannerBytes (h : HostConfig) : List Byte := h.bannerLines.flatMap fun line => line ++ [0x0D, 0x0A]

/-- The banner is "multi-line", and a line feed stands only at the end of a line (R281, N10; log 23). Nothing else is known of
its bytes. -/
def bannerOk (h : HostConfig) : Bool := decide (2 ≤ h.bannerLines.length) && h.bannerLines.all fun line => !line.contains 0x0A

/-- The scale's denominator is no zero, so that R285 gives a number (log 23). -/
def scaleOk (h : HostConfig) : Bool := decide (h.msDen ≠ 0)

/-- The delay configuration check: an empty interval is refused before the host starts (R287). -/
def delayConfigOk (h : HostConfig) : Bool :=
  if h.delayIncl then decide (h.delayLo < h.delayHi) else decide (h.delayLo + 1 < h.delayHi)

/-- Why a host is refused before it starts. -/
inductive HostRefusal where
  /-- The delay interval is empty: "a configuration error, fail fast at startup" (R287). -/
  | emptyDelayInterval
  /-- The banner is not one of R281 (log 23). -/
  | notABanner
  /-- MS_DEN is 0 (log 23). -/
  | zeroScale
  deriving DecidableEq, Repr

/-- The check of a host configuration before the host starts (R287; log 23). -/
def hostRefusal (h : HostConfig) : Option HostRefusal :=
  if delayConfigOk h = false then some .emptyDelayInterval
  else if bannerOk h = false then some .notABanner
  else if scaleOk h = false then some .zeroScale
  else none

/-- Whether a draw is in the interval (R286, both readings of 90_conflicts.md C8). -/
def delayAdmitted (h : HostConfig) (d : Nat) : Bool :=
  (if h.delayIncl then decide (h.delayLo ≤ d) else decide (h.delayLo < d)) && decide (d < h.delayHi)

/-- The generator's seed, `ELAPSED mod 10` (R286). -/
def seedOf (elapsed : Nat) : Nat := elapsed % 10

/-- The button of an LPOLL response: `s[3:1]` (R282, 30_encoding.md R107). Any other code is "Unknown/default". -/
def buttonIdOfPoll (resp : Nat) : ButtonId :=
  match resp / 2 % 8 with
  | 1 => .start
  | 2 => .red
  | 3 => .green
  | 4 => .white
  | 5 => .blue
  | _ => .none

/-- Where the host is in its boot and its loop (R281 to R284). -/
inductive HostPhase where
  /-- Boot: the rest of the banner (R281). -/
  | banner (rest : List Byte)
  /-- Step 1: WAITSEM. -/
  | waitSem
  /-- Step 2: read the mailbox and dispatch. -/
  | dispatch
  /-- start_round 1: the rest of the marker. -/
  | sendGo (rest : List Byte)
  /-- start_round 2: read the seed. -/
  | readSeed
  /-- start_round 2: the k-th draw of a seed's sequence (R286). -/
  | draw (seed k : Nat)
  /-- start_round 3: the milliseconds still to wait. -/
  | delay (ms : Nat)
  /-- start_round 4: ICLR. -/
  | clearIndicators
  /-- start_round 4: TSTART. -/
  | restart
  /-- report 1: read the snapshot. -/
  | readElapsed (id : ButtonId)
  /-- report 3: the rest of the message. -/
  | sendReport (rest : List Byte)
  /-- Step 3: the milliseconds of SETTLE_MS still to wait. -/
  | settleWait (ms : Nat)
  /-- Step 3: LZERO (R290). -/
  | settleZero
  /-- Step 3: LACK (R290). -/
  | settleAck
  /-- Step 3: LCLRF (R290). -/
  | settleClear
  deriving DecidableEq, Repr

/-- The place of the loop that a phase is at. -/
def pointOf : HostPhase → HostPoint
  | .banner _ => .banner
  | .waitSem => .waitSem
  | .dispatch => .dispatch
  | .sendGo _ => .sendGo
  | .readSeed => .readSeed
  | .draw _ _ => .draw
  | .delay _ => .delay
  | .clearIndicators => .clearIndicators
  | .restart => .restart
  | .readElapsed _ => .readElapsed
  | .sendReport _ => .sendReport
  | .settleWait _ => .settleWait
  | .settleZero => .settleZero
  | .settleAck => .settleAck
  | .settleClear => .settleClear

/-- The command the host issues in a phase. None where it computes or waits. -/
def hostCommand : HostPhase → Option Instr
  | .banner (b :: _) => some (.send b)
  | .banner [] => none
  | .waitSem => some .lpoll
  | .dispatch => some .lpoll
  | .sendGo (b :: _) => some (.send b)
  | .sendGo [] => none
  | .readSeed => some .lelap
  | .draw _ _ => none
  | .delay _ => none
  | .clearIndicators => some .iclr
  | .restart => some .tstart
  | .readElapsed _ => some .lelap
  | .sendReport (b :: _) => some (.send b)
  | .sendReport [] => none
  | .settleWait _ => none
  | .settleZero => some .lzero
  | .settleAck => some .lack
  | .settleClear => some .lclrf

/-- Step 2's dispatch (R282): START starts a round, a colour is reported, anything else is a no-op. -/
def dispatchOn (h : HostConfig) : ButtonId → HostPhase
  | .none => .settleWait h.settleMs
  | .start => .sendGo goBytes
  | .red => .readElapsed .red
  | .green => .readElapsed .green
  | .white => .readElapsed .white
  | .blue => .readElapsed .blue

/-- The phase after the host's command has returned `resp`. -/
def phaseAfter (h : HostConfig) (resp : Nat) : HostPhase → HostPhase
  | .banner rest => .banner rest.tail
  | .waitSem => if resp.testBit 0 then .dispatch else .waitSem
  | .dispatch => dispatchOn h (buttonIdOfPoll resp)
  | .sendGo rest => .sendGo rest.tail
  | .readSeed => .draw (seedOf resp) 0
  | .draw seed k => .draw seed k
  | .delay ms => .delay ms
  | .clearIndicators => .restart
  | .restart => .settleWait h.settleMs
  | .readElapsed id => .sendReport ((reportBytes h id resp).getD [])
  | .sendReport rest => .sendReport rest.tail
  | .settleWait ms => .settleWait ms
  | .settleZero => .settleAck
  | .settleAck => .settleClear
  | .settleClear => .waitSem

/-- The phase after a turn of the host that issues no command: a message is finished, a draw is taken or drawn again
(R286, RNG a parameter), or a millisecond of a wait has passed, in which other agents may have taken any steps (log 15). -/
def phaseAdvance (h : HostConfig) (rng : Nat → Nat → Nat) : HostPhase → HostPhase
  | .banner [] => .waitSem
  | .banner (b :: rest) => .banner (b :: rest)
  | .waitSem => .waitSem
  | .dispatch => .dispatch
  | .sendGo [] => .readSeed
  | .sendGo (b :: rest) => .sendGo (b :: rest)
  | .readSeed => .readSeed
  | .draw seed k => if delayAdmitted h (rng seed k) then .delay (rng seed k) else .draw seed (k + 1)
  | .delay 0 => .clearIndicators
  | .delay (ms + 1) => .delay ms
  | .clearIndicators => .clearIndicators
  | .restart => .restart
  | .readElapsed id => .readElapsed id
  | .sendReport [] => .settleWait h.settleMs
  | .sendReport (b :: rest) => .sendReport (b :: rest)
  | .settleWait 0 => .settleZero
  | .settleWait (ms + 1) => .settleWait ms
  | .settleZero => .settleZero
  | .settleAck => .settleAck
  | .settleClear => .settleClear

/-- Where the host is in one echo (45_host_loop.md R288): USTAT bit 1, then RECV, then SEND of the returned byte. -/
inductive EchoPhase where
  | check
  | take
  | give (b : Byte)
  deriving DecidableEq, Repr

/-- The command of an echo phase (R288). -/
def echoCommand : EchoPhase → Instr
  | .check => .ustat
  | .take => .recv
  | .give b => .send b

/-- The echo phase after its command has returned `resp` (R288). None where the echo is done. -/
def echoNext (resp : Nat) : EchoPhase → Option EchoPhase
  | .check => if resp.testBit 1 then some .take else none
  | .take => some (.give (BitVec.ofNat 8 resp))
  | .give _ => none

/-- The echo phase of a host that does nothing but echo: from a finished echo to the next check (log 16). -/
def echoAfter (resp : Nat) (e : EchoPhase) : EchoPhase := (echoNext resp e).getD .check

/-- The echo of a reference host that comes to a phase: a check where the host echoes at that place (R288; log 16). -/
def echoOnEntry (h : HostConfig) (p : HostPhase) : Option EchoPhase :=
  if h.echoAt.contains (pointOf p) then some .check else none

end Sys2Proof.Machine
end

