-- ==== Sys2Proof/Machine/Script.lean ====
section
/-! DEFINITION. Host scripts: the lines of 30_encoding.md R118 to R120, what each expands to, and the reading of a line's
characters. -/

namespace Sys2Proof.Machine

/-- A line of a host script: a command, a raw word, a pseudo-instruction (R119), or an environment line (R120). -/
inductive ScriptLine where
  | command (i : Instr)
  | word (w : Word)
  | waitTx
  | waitRx
  | waitSem
  | sendStr (bytes : List Byte)
  | settle
  | tick (n : Nat)
  | swtick (n : Nat)
  | rxd (v : Bool)
  | press (b : Button)
  | release (b : Button)
  | arb
  deriving DecidableEq, Repr

/-- What a script does, one at a time: present a word, present a word again and again until a bit of its response has
a value, or let another agent take a step. -/
inductive ScriptAct where
  | issue (w : Word)
  | repeatUntil (w : Word) (bit : Nat) (value : Bool)
  | event (e : Event)
  deriving DecidableEq, Repr

/-- The expansion of a line (R118 to R120). -/
def expandLine : ScriptLine → List ScriptAct
  | .command i => [.issue (encode i)]
  | .word w => [.issue w]
  | .waitTx => [.repeatUntil (encode .ustat) 0 false]
  | .waitRx => [.repeatUntil (encode .ustat) 1 true]
  | .waitSem => [.repeatUntil (encode .lpoll) 0 true]
  | .sendStr bytes => bytes.map fun b => .issue (encode (.send b))
  | .settle => [.issue (encode .lzero), .issue (encode .lack), .issue (encode .lclrf)]
  | .tick n => List.replicate n (.event .bclkTick)
  | .swtick n => List.replicate n (.event .swclkTick)
  | .rxd v => [.event (.rxdSet v)]
  | .press b => [.event (.press b)]
  | .release b => [.event (.release b)]
  | .arb => [.event .arbitrate]

/-- A script's acts, line after line. -/
def expandScript (lines : List ScriptLine) : List ScriptAct := lines.flatMap expandLine

/-- The mnemonics of the commands without an operand, in capitals (R118). -/
def plainMnemonics : List (List Char × ScriptLine) :=
  [ (['N', 'O', 'P'], .command .nop), (['F', 'L', 'T', 'R', 'D'], .command .fltrd)
  , (['T', 'S', 'T', 'A', 'R', 'T'], .command .tstart), (['T', 'S', 'T', 'O', 'P'], .command .tstop)
  , (['T', 'N', 'O', 'W'], .command .tnow), (['T', 'R', 'E', 'A', 'D'], .command .tread)
  , (['R', 'E', 'C', 'V'], .command .recv), (['U', 'S', 'T', 'A', 'T'], .command .ustat)
  , (['L', 'P', 'O', 'L', 'L'], .command .lpoll), (['L', 'E', 'L', 'A', 'P'], .command .lelap)
  , (['L', 'A', 'C', 'K'], .command .lack), (['L', 'Z', 'E', 'R', 'O'], .command .lzero)
  , (['L', 'C', 'L', 'R', 'F'], .command .lclrf), (['I', 'C', 'L', 'R'], .command .iclr)
  , (['W', 'A', 'I', 'T', 'T', 'X'], .waitTx), (['W', 'A', 'I', 'T', 'R', 'X'], .waitRx)
  , (['W', 'A', 'I', 'T', 'S', 'E', 'M'], .waitSem), (['S', 'E', 'T', 'T', 'L', 'E'], .settle)
  , (['@', 'a', 'r', 'b'], .arb) ]

/-- The button names of environment lines (R120). -/
def buttonNames : List (List Char × Button) :=
  [ (['S', 'T', 'A', 'R', 'T'], .start), (['R', 'E', 'D'], .red), (['G', 'R', 'E', 'E', 'N'], .green)
  , (['W', 'H', 'I', 'T', 'E'], .white), (['B', 'L', 'U', 'E'], .blue) ]

/-- Space and tab separate the parts of a line (log 20). -/
def isBlank (c : Char) : Bool := c == ' ' || c == '\t' || c == '\r'

/-- A character code is sent as a byte (R118: "its ASCII code"). -/
def charByte (c : Char) : Option Byte := if c.toNat < 128 then some (BitVec.ofNat 8 c.toNat) else none

/-- The value of a hexadecimal digit. -/
def hexDigit (c : Char) : Option Nat :=
  if '0' ≤ c ∧ c ≤ '9' then some (c.toNat - 48)
  else if 'a' ≤ c ∧ c ≤ 'f' then some (c.toNat - 87)
  else if 'A' ≤ c ∧ c ≤ 'F' then some (c.toNat - 55)
  else none

/-- The value of digits in a base, or none where one is no digit of it. -/
def digitsValue (base : Nat) : Nat → List Char → Option Nat
  | acc, [] => some acc
  | acc, c :: cs =>
    match hexDigit c with
    | some d => if d < base then digitsValue base (acc * base + d) cs else none
    | none => none

/-- A number: `0x..` or decimal (R118). -/
def numberValue : List Char → Option Nat
  | '0' :: 'x' :: c :: cs => digitsValue 16 0 (c :: cs)
  | c :: cs => digitsValue 10 0 (c :: cs)
  | [] => none

/-- Drop the blanks at the front. -/
def skipBlanks (cs : List Char) : List Char := cs.dropWhile isBlank

/-- The part up to the next blank or comment, and what follows it. -/
def takePart (cs : List Char) : List Char × List Char := cs.span fun c => !isBlank c && c != ';'

/-- Nothing but blanks and a comment is left: "Comments start with `;`" (R118). -/
def atLineEnd (cs : List Char) : Bool :=
  match skipBlanks cs with
  | [] => true
  | c :: _ => c == ';'

/-- SEND's operand `#imm`: decimal, `0x..` or `'c'`, and a byte (R118). -/
def sendOperand : List Char → Option Byte
  | '#' :: '\'' :: c :: '\'' :: rest => if atLineEnd rest then charByte c else none
  | '#' :: cs =>
    if atLineEnd (takePart cs).2 then
      (numberValue (takePart cs).1).bind fun n => if n < 256 then some (BitVec.ofNat 8 n) else none
    else none
  | _ => none

/-- The bytes of a quoted string after its opening quote, with the escapes `\r` and `\n` (R119, R283; log 20), and what
follows the closing quote. -/
def stringBytes : List Char → Option (List Byte × List Char)
  | '"' :: rest => some ([], rest)
  | '\\' :: 'r' :: rest => (stringBytes rest).map fun p => (0x0D#8 :: p.1, p.2)
  | '\\' :: 'n' :: rest => (stringBytes rest).map fun p => (0x0A#8 :: p.1, p.2)
  | c :: rest => (charByte c).bind fun b => (stringBytes rest).map fun p => (b :: p.1, p.2)
  | [] => none

/-- SENDSTR's operand `"s"` (R119). -/
def stringOperand : List Char → Option (List Byte)
  | '"' :: rest => (stringBytes rest).bind fun p => if atLineEnd p.2 then some p.1 else none
  | _ => none

/-- An operand that is one number, below a bound. -/
def numberOperand (bound : Nat) (cs : List Char) : Option Nat :=
  if atLineEnd (takePart cs).2 then (numberValue (takePart cs).1).bind fun n => if n < bound then some n else none
  else none

/-- An operand that is a count (`@tick n`, `@swtick n`), of any size. -/
def countOperand (cs : List Char) : Option Nat :=
  if atLineEnd (takePart cs).2 then numberValue (takePart cs).1 else none

/-- An operand that is a button's name. -/
def buttonOperand (cs : List Char) : Option Button :=
  if atLineEnd (takePart cs).2 then buttonNames.lookup (takePart cs).1 else none

/-- A line's meaning from its first part and the rest (R118 to R120). None is a syntax error. -/
def parseParts (head rest : List Char) : Option ScriptLine :=
  match plainMnemonics.lookup head with
  | some line => if atLineEnd rest then some line else none
  | none =>
    if head = ['S', 'E', 'N', 'D'] then (sendOperand (skipBlanks rest)).map fun b => .command (.send b)
    else if head = ['S', 'E', 'N', 'D', 'S', 'T', 'R'] then (stringOperand (skipBlanks rest)).map .sendStr
    else if head = ['.', 'w', 'o', 'r', 'd'] then
      (numberOperand 65536 (skipBlanks rest)).map fun n => .word (BitVec.ofNat 16 n)
    else if head = ['@', 't', 'i', 'c', 'k'] then (countOperand (skipBlanks rest)).map .tick
    else if head = ['@', 's', 'w', 't', 'i', 'c', 'k'] then (countOperand (skipBlanks rest)).map .swtick
    else if head = ['@', 'r', 'x', 'd'] then (numberOperand 2 (skipBlanks rest)).map fun n => .rxd (n == 1)
    else if head = ['@', 'p', 'r', 'e', 's', 's'] then (buttonOperand (skipBlanks rest)).map .press
    else if head = ['@', 'r', 'e', 'l', 'e', 'a', 's', 'e'] then (buttonOperand (skipBlanks rest)).map .release
    else none

/-- One line of a host script: "One command per line" (R118). `some []` for a blank or comment line, none for a line that
is no line of R118 to R120. -/
def parseLine (cs : List Char) : Option (List ScriptLine) :=
  if atLineEnd cs then some []
  else (parseParts (takePart (skipBlanks cs)).1 (takePart (skipBlanks cs)).2).map fun line => [line]

end Sys2Proof.Machine
end

