-- ==== Sys2Proof/Machine/Console.lean ====
section
/-! DEFINITION. The block composed with a host: the reference host program of 45_host_loop.md, a host that only echoes, or a
host script. The block is always stepped by `step`; "A claim about the whole console composes the block with it". -/

namespace Sys2Proof.Machine

/-- The block's step when the host presents the word `w` at the port. -/
def present (w : Word) (s : State) : Host.Outcome State Fault Refusal :=
  step { s with program := [w], turns := .host :: s.turns }

/-- The block's step when another agent's event comes. -/
def happen (e : Event) (s : State) : Host.Outcome State Fault Refusal := step { s with turns := .event e :: s.turns }

/-- The presented command took its step: its word is no longer at the port. -/
def accepted (s : State) : Bool := s.program.isEmpty

/-- An outcome of the block inside a composition: `k` builds the composition's next state. -/
def within (o : Host.Outcome State Fault Refusal) (ref : Refusal → ρ) (k : State → α) : Host.Outcome α Fault ρ :=
  match o with
  | .next s => .next (k s)
  | .fault r => .fault r
  | .refused r => .refused (ref r)

/-- Why a console has no meaning: its block's refusal, or its host's. -/
inductive ConsoleRefusal where
  /-- The block refuses its step. -/
  | block (r : Refusal)
  /-- The host is refused "before the host starts" (45_host_loop.md R287; log 23). -/
  | host (r : HostRefusal)
  deriving DecidableEq, Repr

/-- The console: the host's parameters, the block, where the host program is, and the echo it is in the middle of. -/
structure Console where
  host : HostConfig
  block : State
  phase : HostPhase
  echo : Option EchoPhase
  deriving DecidableEq, Repr

/-- The host comes to a phase, and echoes first where its parameters place an echo there (R288; log 16). -/
def consoleEnter (c : Console) (s : State) (p : HostPhase) : Console :=
  { c with block := s, phase := p, echo := echoOnEntry c.host p }

/-- The console right after a reset of its block: the host has its banner to send (R281). A host configuration with an empty
delay interval, or no banner of R281, is refused here, before the host starts (R287; log 23). -/
def consoleBoot (h : HostConfig) (cfg : Config) (l : Launch) : Except HostRefusal Console :=
  match hostRefusal h with
  | some r => .error r
  | none =>
    .ok { host := h, block := State.launch cfg l, phase := .banner (bannerBytes h),
          echo := echoOnEntry h (.banner (bannerBytes h)) }

/-- The gate before every turn of a console: a refused host has no run (R287). -/
def consoleGuarded (c : Console) (k : Host.Outcome Console Fault ConsoleRefusal) :
    Host.Outcome Console Fault ConsoleRefusal :=
  match hostRefusal c.host with
  | some r => .refused (.host r)
  | none => k

/-- The host goes on with its echo, by the echo phase's command (R288). -/
def echoTurn (e : EchoPhase) (c : Console) : Host.Outcome Console Fault ConsoleRefusal :=
  within (present (encode (echoCommand e)) c.block) .block fun s =>
    { c with block := s, echo := if accepted s then echoNext (s.resp.getD 0) e else c.echo }

/-- The host goes on with its loop: it issues its phase's command and enters the next phase when the command takes its step,
or moves on by itself where it issues none (R282). -/
def phaseTurn (rng : Nat → Nat → Nat) (c : Console) : Host.Outcome Console Fault ConsoleRefusal :=
  match hostCommand c.phase with
  | none => .next (consoleEnter c c.block (phaseAdvance c.host rng c.phase))
  | some i =>
    within (present (encode i) c.block) .block fun s =>
      if accepted s then consoleEnter c s (phaseAfter c.host (s.resp.getD 0) c.phase) else { c with block := s }

/-- A turn of the reference host (R282, R288). -/
def consoleHostTurn (rng : Nat → Nat → Nat) (c : Console) : Host.Outcome Console Fault ConsoleRefusal :=
  consoleGuarded c (match c.echo with
    | some e => echoTurn e c
    | none => phaseTurn rng c)

/-- A turn of another agent of the block under the console. -/
def consoleEventTurn (e : Event) (c : Console) : Host.Outcome Console Fault ConsoleRefusal :=
  consoleGuarded c (within (happen e c.block) .block fun s => { c with block := s })

/-- A block with a host that only echoes (R288). -/
structure EchoConsole where
  block : State
  phase : EchoPhase
  deriving DecidableEq, Repr

/-- A turn of the host that only echoes (R288). -/
def echoHostTurn (c : EchoConsole) : Host.Outcome EchoConsole Fault Refusal :=
  within (present (encode (echoCommand c.phase)) c.block) id fun s =>
    { block := s, phase := if accepted s then echoAfter (s.resp.getD 0) c.phase else c.phase }

/-- A block with a host script: the acts still to be done (30_encoding.md R118 to R120). -/
structure ScriptRun where
  block : State
  rest : List ScriptAct
  deriving DecidableEq, Repr

/-- Whether an act is an environment line's step and no command (R120). -/
def isEnvironment : ScriptAct → Bool
  | .issue _ => false
  | .repeatUntil _ _ _ => false
  | .event _ => true

/-- The point at which a claim about a script is stated: HOST has issued the script's last command and received its response
(70_reset_and_hazards.md R353), so at most environment lines are left. -/
def scriptEnded (c : ScriptRun) : Bool := c.rest.all isEnvironment

/-- Whether an act is done once its command has returned `resp`. -/
def actDone (resp : Nat) : ScriptAct → Bool
  | .issue _ => true
  | .repeatUntil _ bit value => resp.testBit bit == value
  | .event _ => true

/-- One act of a script: a word stays at the port while it is held, a repeated command stays until its bit has its value
(R119), and an environment line is a step of its agent (R120). A script that is over has no act, and the run goes on
without it (R353: "Terminal state: none"). -/
def scriptTurn (c : ScriptRun) : Host.Outcome ScriptRun Fault Refusal :=
  match c.rest with
  | [] => .next c
  | .event e :: acts => within (happen e c.block) id fun s => { block := s, rest := acts }
  | .issue w :: acts =>
    within (present w c.block) id fun s => { block := s, rest := if accepted s then acts else .issue w :: acts }
  | .repeatUntil w bit value :: acts =>
    within (present w c.block) id fun s =>
      { block := s, rest := if accepted s && actDone (s.resp.getD 0) (.repeatUntil w bit value) then acts
                            else .repeatUntil w bit value :: acts }

/-- A turn of another agent of the block under a script, beside the script's own environment lines (R353). -/
def scriptEventTurn (e : Event) (c : ScriptRun) : Host.Outcome ScriptRun Fault Refusal :=
  within (happen e c.block) id fun s => { c with block := s }

/-- Whose turn it is in a run of a script: the script's next act, or another agent's event. -/
inductive ScriptTurn where
  | act
  | event (e : Event)
  deriving DecidableEq, Repr

/-- One turn of a run of a script. -/
def runScriptTurn (t : ScriptTurn) (c : ScriptRun) : Host.Outcome ScriptRun Fault Refusal :=
  match t with
  | .act => scriptTurn c
  | .event e => scriptEventTurn e c

/-- The agent of the block whose turn a script's turn is: an environment line is its agent's, every other act HOST's. -/
def agentTurn (t : ScriptTurn) (c : ScriptRun) : Turn :=
  match t, c.rest with
  | .event e, _ => .event e
  | .act, .event e :: _ => .event e
  | .act, _ => .host

end Sys2Proof.Machine
end

