-- ==== Sys2Proof/Safety.lean ====
section
/-! DEFINITION. The terms claims use: a good state, the invariant of 10_state.md R59 and what it needs, the views of the
units, runs and their fairness (00_scope.md R12). -/

namespace Sys2Proof.Machine

/-- The block can take a step: its parameters are in the range of R8 and HALTED = 0 (R142, R311). -/
abbrev Ready (s : State) : Prop := s.cfg.ok = true ∧ s.halted = false

/-- A run is good while no fault is recorded: FAULT_ILL = 0 (60_exceptions.md R310) and not HALT (R311). -/
abbrev Good (s : State) : Prop := s.faultIll = false ∧ s.halted = false

/-- Every TMR_W-bit element is within its width (10_state.md R30; log 11), and a response within RESP_W bits (R105). -/
abbrev WidthInv (s : State) : Prop :=
  s.cnt < 2 ^ s.cfg.tmrW ∧ s.swcnt < 2 ^ s.cfg.tmrW ∧ s.txccr < 2 ^ s.cfg.tmrW ∧ s.rxccr < 2 ^ s.cfg.tmrW ∧
    s.elapsed < 2 ^ s.cfg.tmrW ∧ s.resp.getD 0 < 2 ^ s.cfg.respW

/-- "When TIMER_TOPOLOGY = SPLIT, CNT_RUN is hardwired to 1" (R32). -/
abbrev TopologyInv (s : State) : Prop := s.cfg.topology = .split → s.cntRun = true

/-- Idle transmitter: R59(a), and the line idles high (43_uart_tx.md R225). -/
abbrev TxIdleInv (s : State) : Prop := s.txIe = false → s.txbitcnt = 10 ∧ s.txd = true

/-- Busy transmitter: R59(b), with the stop bit still to come as the highest bit left. -/
abbrev TxBusyInv (s : State) : Prop :=
  s.txIe = true → 1 ≤ s.txbitcnt.toNat ∧ s.txbitcnt.toNat ≤ 10 ∧ s.txsr.toNat < 2 ^ s.txbitcnt.toNat ∧
    2 ^ (s.txbitcnt.toNat - 1) ≤ s.txsr.toNat

/-- Receiver: R59(c) and R59(d). -/
abbrev RxInv (s : State) : Prop :=
  (s.rxMode = .capture → s.rxbitcnt = 8) ∧ 1 ≤ s.rxbitcnt.toNat ∧ s.rxbitcnt.toNat ≤ 8

/-- Latch: no colour flag is pending while LOCKED and no indicator is lit while ARMED (R180, R186, R187), at most one
indicator is lit (R59(g)), and a pending event names a button (R59(f), R88). -/
abbrev LatchInv (s : State) : Prop :=
  (s.lstate = .locked → s.ifg &&& 0b11110 = 0) ∧ (s.lstate = .armed → s.ind = 0) ∧
    (s.ind = 0 ∨ s.ind = 1 ∨ s.ind = 2 ∨ s.ind = 4 ∨ s.ind = 8) ∧ (s.sem = true → s.buttonId ≠ .none)

/-- How many ticks of a running counter lie before it reaches a target (41_timer.md R159). -/
def ticksTo (s : State) (target : Nat) : Nat := (target + 2 ^ s.cfg.tmrW - s.cnt) % 2 ^ s.cfg.tmrW

/-- Under SPLIT a compare target in use is never more than one bit period (TX) or one and a half (RX) ahead. -/
abbrev TargetInv (s : State) : Prop :=
  s.cfg.topology = .split →
    (s.txIe = true → 1 ≤ ticksTo s s.txccr ∧ ticksTo s s.txccr ≤ s.cfg.bitp) ∧
    (s.rxMode = .compare → 1 ≤ ticksTo s s.rxccr ∧ ticksTo s s.rxccr ≤ s.cfg.bitp + s.cfg.halfp)

/-- The invariant of every reachable state (R59). -/
abbrev Inv (s : State) : Prop :=
  s.cfg.ok = true ∧ WidthInv s ∧ TopologyInv s ∧ TxIdleInv s ∧ TxBusyInv s ∧ RxInv s ∧ LatchInv s ∧ TargetInv s

/-- What a frame on the line depends on: the time base and the transmitter. -/
abbrev TxView := Config × Nat × Bool × Nat × BitVec 10 × BitVec 4 × Bool × Bool

/-- The time base and the transmitter of a state. -/
abbrev txView (s : State) : TxView := (s.cfg, s.cnt, s.cntRun, s.txccr, s.txsr, s.txbitcnt, s.txIe, s.txd)

/-- The receiver's registers, RXD included. -/
abbrev rxView (s : State) : Nat × BitVec 8 × BitVec 4 × RxMode × BitVec 8 × Bool × Bool :=
  (s.rxccr, s.rxsr, s.rxbitcnt, s.rxMode, s.rxbuf, s.rxavail, s.rxd)

/-- The mailbox: SEM, BUTTON_ID and ELAPSED (20_memory.md R88). -/
abbrev mailbox (s : State) : Bool × ButtonId × Nat := (s.sem, s.buttonId, s.elapsed)

/-- The whole of R30's tuple: a state without the model's own fields. -/
abbrev blockState (s : State) : State := { s with program := [], resp := none, turns := [], turnNo := 0 }

/-- `n` ticks of the bit clock with no other step between. -/
def ticks : Nat → State → State
  | 0, s => s
  | n + 1, s => ticks n (bclkTick s)

/-- The line held at a level for `n` ticks (a sender's slot, 44_uart_rx.md R250). -/
def holdLine (v : Bool) (n : Nat) (s : State) : State := ticks n (rxdSet v s)

/-- A well-formed sender's frame of a byte: each of the 10 slots on the line for BITP ticks (R250, R257). -/
def driveFrame (b : Byte) (s : State) : State :=
  (List.range 10).foldl (fun t k => holdLine (slot b k) t.cfg.bitp t) s

/-- One tick with RXD wired to TXD. -/
def loopbackTick (s : State) : State := rxdSet (bclkTick s).txd (bclkTick s)

/-- `n` ticks with RXD wired to TXD. -/
def loopback : Nat → State → State
  | 0, s => s
  | n + 1, s => loopback n (loopbackTick s)

/-- The turn is not a reset. -/
def notReset : Turn → Bool
  | .host => true
  | .event _ => true
  | .reset _ => false

/-- A state that some run reaches: a reset of a block with parameters in range, any program and turns, and any steps. -/
inductive Reachable : State → Prop
  | launch (c : Config) (l : Launch) (prog : List Word) (ts : List Turn) (n : Nat) (h : c.ok = true) :
      Reachable { State.launch c l with program := prog, turns := ts, turnNo := n }
  | step (s t : State) (h : Reachable s) (hs : step s = .next t) : Reachable t

/-- The turns of a list, one after another, up to the first stop. -/
def runTurns : List Turn → State → Host.Outcome State Fault Refusal
  | [], s => .next s
  | t :: ts, s =>
    match runTurn t s with
    | .next s' => runTurns ts s'
    | .fault r => .fault r
    | .refused r => .refused r

/-- An endless run (70_reset_and_hazards.md R353): the n-th turn takes the n-th state to the next. -/
def IsRun (turn : Nat → Turn) (r : Nat → State) : Prop := ∀ n, runTurn (turn n) (r n) = .next (r (n + 1))

/-- BCLK is fair: it ticks again and again while CNT_RUN stays 1 (00_scope.md R12). -/
def BclkFair (turn : Nat → Turn) (r : Nat → State) : Prop :=
  ∀ n, (∀ m, n ≤ m → (r m).cntRun = true) → ∃ m, n ≤ m ∧ turn m = .event .bclkTick

/-- SWCLK is fair: it ticks again and again while SW_RUN stays 1, under SPLIT (R12). -/
def SwclkFair (turn : Nat → Turn) (r : Nat → State) : Prop :=
  ∀ n, (∀ m, n ≤ m → (r m).cfg.topology = .split ∧ (r m).swRun = true) → ∃ m, n ≤ m ∧ turn m = .event .swclkTick

/-- ARBITER is fair: it steps while IFG stays nonzero (R12). -/
def ArbiterFair (turn : Nat → Turn) (r : Nat → State) : Prop :=
  ∀ n, (∀ m, n ≤ m → (r m).ifg ≠ 0) → ∃ m, n ≤ m ∧ turn m = .event .arbitrate

/-- An endless run of a host script with any steps of the other agents between its acts: plain words, environment lines and
the repeated commands of WAITTX, WAITRX and WAITSEM alike (70_reset_and_hazards.md R353, 30_encoding.md R119). -/
def IsScriptRun (turn : Nat → ScriptTurn) (r : Nat → ScriptRun) : Prop :=
  ∀ n, runScriptTurn (turn n) (r n) = .next (r (n + 1))

/-- The turns of the block's agents in a run of a script. -/
def agentTurns (turn : Nat → ScriptTurn) (r : Nat → ScriptRun) (n : Nat) : Turn := agentTurn (turn n) (r n)

/-- A run of a script that R12 makes fair. -/
def FairScriptRun (turn : Nat → ScriptTurn) (r : Nat → ScriptRun) : Prop :=
  IsScriptRun turn r ∧ BclkFair (agentTurns turn r) (fun n => (r n).block) ∧
    SwclkFair (agentTurns turn r) (fun n => (r n).block) ∧ ArbiterFair (agentTurns turn r) (fun n => (r n).block)

/-- The turn after which HOST has issued a script's last command and received its response (R353). -/
def EndsAt (r : Nat → ScriptRun) (n : Nat) : Prop := scriptEnded (r n) = true ∧ ∀ m, m < n → scriptEnded (r m) = false

/-- A claim `P` about a script run from a block `s`: P holds of the block at the script's end, in every fair run (R353). The
premise of every claim, FAULT_ILL = 0 at the end, is `Good` (60_exceptions.md R310). -/
def ScriptClaim (s : State) (acts : List ScriptAct) (P : State → Prop) : Prop :=
  ∀ (turn : Nat → ScriptTurn) (r : Nat → ScriptRun), FairScriptRun turn r → r 0 = { block := s, rest := acts } →
    ∀ n, EndsAt r n → Good (r n).block → P (r n).block

/-- The place of a button in PRIO, as a number: START, BLUE, RED, then Green and White as GW_ORDER says
(42_latch.md R183). -/
def priorityRank (c : Config) : Button → Nat
  | .start => 0
  | .blue => 1
  | .red => 2
  | .green => if c.gwOrder = .greenFirst then 3 else 4
  | .white => if c.gwOrder = .greenFirst then 4 else 3

/-- The host has seen SEM = 1 and has not acknowledged: every phase from the dispatch to the LACK (45_host_loop.md
R280, R282). -/
def behindSemaphore : HostPhase → Bool
  | .banner _ => false
  | .waitSem => false
  | .dispatch => true
  | .sendGo _ => true
  | .readSeed => true
  | .draw _ _ => true
  | .delay _ => true
  | .clearIndicators => true
  | .restart => true
  | .readElapsed _ => true
  | .sendReport _ => true
  | .settleWait _ => true
  | .settleZero => true
  | .settleAck => true
  | .settleClear => false

/-- A host behind the semaphore check has a pending event at the block (R280; 20_memory.md R89). -/
abbrev ConsoleInv (c : Console) : Prop := behindSemaphore c.phase = true → c.block.sem = true

/-- The number that decimal ASCII digits stand for, most significant first (R284). -/
def decimalValue (bytes : List Byte) : Nat := bytes.foldl (fun acc d => acc * 10 + (d.toNat - 0x30)) 0

end Sys2Proof.Machine
end

