-- ==== Sys2Proof/Certificates/Slice0/Obligations.lean ====
section
/-! DEFINITION. The statements about the machine, for the provers. "log n" is notes/assumptions/n.md. In every statement
about a command, `resp` and `program` are the model's port: the response HOST receives and the word it goes on to
(log 1, log 4); all else is the spec's. -/

open Sys2Proof Sys2Proof.Machine

/-! ### Encoding -/

/-- Decoding a word gives an instruction exactly when the word is that instruction's encoding: no word has two meanings and
no bit of an encoding is dropped (30_encoding.md R102, R103). -/
def Obligations.DecodeGivesInstructionIffEncoded : Prop :=
  ∀ (w : Word) (i : Instr), decode w = .ok i ↔ w = encode i

/-- The 15 rows of the opcode map (R102), each as its mask and match value. -/
def Obligations.OpcodeMapRowsDecode : Prop :=
  ∀ w : Word,
    (decode w = .ok .nop ↔ w &&& 0xFFFF = 0x0000) ∧
    (decode w = .ok .fltrd ↔ w &&& 0xFFFF = 0x0100) ∧
    (decode w = .ok .tstart ↔ w &&& 0xFFFF = 0x1000) ∧
    (decode w = .ok .tstop ↔ w &&& 0xFFFF = 0x1100) ∧
    (decode w = .ok .tnow ↔ w &&& 0xFFFF = 0x1200) ∧
    (decode w = .ok .tread ↔ w &&& 0xFFFF = 0x1300) ∧
    (∀ b : Byte, decode w = .ok (.send b) ↔ w &&& 0xFF00 = 0x2000 ∧ w.toNat % 256 = b.toNat) ∧
    (decode w = .ok .recv ↔ w &&& 0xFFFF = 0x2100) ∧
    (decode w = .ok .ustat ↔ w &&& 0xFFFF = 0x2200) ∧
    (decode w = .ok .lpoll ↔ w &&& 0xFFFF = 0x3000) ∧
    (decode w = .ok .lelap ↔ w &&& 0xFFFF = 0x3100) ∧
    (decode w = .ok .lack ↔ w &&& 0xFFFF = 0x3200) ∧
    (decode w = .ok .lzero ↔ w &&& 0xFFFF = 0x3300) ∧
    (decode w = .ok .lclrf ↔ w &&& 0xFFFF = 0x3400) ∧
    (decode w = .ok .iclr ↔ w &&& 0xFFFF = 0x3500)

/-- The illegal words are those of R103, and presenting one sets FAULT_ILL, returns 0 and has no other effect (R103,
60_exceptions.md R310). -/
def Obligations.IllegalWordOnlySetsFaultIll : Prop :=
  ∀ w : Word,
    ((∀ i, decode w ≠ .ok i) ↔
      let g := w.toNat / 4096
      let f := w.toNat / 256 % 16
      let imm := w.toNat % 256
      4 ≤ g ∨ (g = 0 ∧ w ≠ 0x0000 ∧ w ≠ 0x0100) ∨ (g = 1 ∧ (4 ≤ f ∨ imm ≠ 0)) ∨
        (g = 2 ∧ (3 ≤ f ∨ ((f = 1 ∨ f = 2) ∧ imm ≠ 0))) ∨ (g = 3 ∧ (6 ≤ f ∨ imm ≠ 0))) ∧
    ∀ (s : State) (ws : List Word) (ts : List Turn), Ready s → s.turns = .host :: ts → s.program = w :: ws →
      (∀ i, decode w ≠ .ok i) →
      step s = .next { s with faultIll := true, resp := some 0, program := ws, turns := ts }

/-- Words written out from the table of R102 decode as it says, and three illegal words of 95_test_vectors.md V11 are rejected.
The spec has one fault for all of them; the names under which they are rejected are the model's (log 14). -/
def Obligations.TableWordsDecodeAsWritten : Prop :=
  decode 0b0000000000000000 = .ok .nop ∧ decode 0b0001001100000000 = .ok .tread ∧
  decode 0b0010000001000001 = .ok (.send 0x41) ∧ decode 0b0010001000000000 = .ok .ustat ∧
  decode 0b0011001000000000 = .ok .lack ∧ decode 0x2101 = .error .nonzeroImmediate ∧
  decode 0x3600 = .error .unassignedFunction ∧ decode 0xFFFF = .error .unassignedGroup

/-- A byte-serial link carries a command word as two bytes, the low byte first, and is read back (20_memory.md R82). -/
def Obligations.ByteLinkCarriesLowByteFirst : Prop :=
  (∀ w : Word, (linkBytes w).map BitVec.toNat = [w.toNat % 256, w.toNat / 256]) ∧
  ∀ (i : Instr) (rest : List Byte), decodeBytes (linkBytes (encode i) ++ rest) = .ok (i, rest)

/-! ### A step -/

/-- On HOST's turn a step is exec of the instruction that the presented word decodes to, once the turn is taken; so it is
for a word placed by withFetchWord (R142; log 1, log 2). -/
def Obligations.StepRunsPresentedCommand : Prop :=
  (∀ (s : State) (w : Word) (ws : List Word) (ts : List Turn) (i : Instr),
    s.turns = .host :: ts → s.program = w :: ws → decode w = .ok i → step s = exec i { s with turns := ts }) ∧
  ∀ (s : State) (w : Word) (i : Instr), decode w = .ok i →
    step (s.withFetchWord 16 w.toNat) = exec i { s with program := w :: s.program }

/-- On an event's turn a ready block takes the event's step if it is enabled, and is left as it is if not (30_encoding.md
R117; log 3). -/
def Obligations.StepRunsEvent : Prop :=
  ∀ (s : State) (e : Event) (ts : List Turn), Ready s → s.turns = .event e :: ts →
    (eventEnabled e s = true → step s = .next (eventEffect e { s with turns := ts })) ∧
    (eventEnabled e s = false → step s = .next { s with turns := ts })

/-- A configuration outside the five constraints of R8 is refused, and the reference values satisfy all five (00_scope.md
R8); so is one with another frame size than the 10 and 8 bits that the rules are written for (the model's, log 22). That the refusal comes at every step and command is the model's (log 6). -/
def Obligations.ConfigOutOfRangeIsRefused : Prop :=
  (Config.reference.ok = true ∧ Config.reference.bitp = 104 ∧ Config.reference.halfp = 52) ∧
  ∀ s : State,
    (s.cfg.ok = true ↔ 16 ≤ s.cfg.tmrW ∧ 2 ≤ s.cfg.bitp ∧ 1 ≤ s.cfg.halfp ∧ s.cfg.halfp < s.cfg.bitp ∧
      s.cfg.bitp + s.cfg.halfp < 2 ^ s.cfg.tmrW ∧ 11 * s.cfg.bitp < 2 ^ s.cfg.tmrW ∧ s.cfg.txFrameBits = 10 ∧
      s.cfg.rxDataBits = 8) ∧
    (s.cfg.ok = false → step s = .refused .configOutOfRange ∧ ∀ i, exec i s = .refused .configOutOfRange)

/-! ### The commands: each one's encoding, its result and its frame -/

/-- NOP (40_block.md R140) changes nothing and returns 0. -/
def Obligations.NopChangesNothing : Prop :=
  decode 0x0000 = .ok .nop ∧
  ∀ s : State, Ready s → exec .nop s = .next { s with resp := some 0, program := s.program.tail }

/-- FLTRD (R141) returns FAULT_ILL in bit 0 and does not clear it. -/
def Obligations.FltrdReturnsFaultFlag : Prop :=
  decode 0x0100 = .ok .fltrd ∧
  ∀ s : State, Ready s →
    exec .fltrd s = .next { s with resp := some (if s.faultIll then 1 else 0), program := s.program.tail }

/-- TSTART (41_timer.md R155, R153): the stopwatch counts on from 0. SPLIT leaves CNT alone; SHARED zeroes it. -/
def Obligations.TstartRestartsStopwatch : Prop :=
  decode 0x1000 = .ok .tstart ∧
  ∀ s : State, Ready s →
    (s.cfg.topology = .split →
      exec .tstart s = .next { s with swcnt := 0, swRun := true, resp := some 0, program := s.program.tail }) ∧
    (s.cfg.topology = .shared →
      exec .tstart s = .next { s with cnt := 0, cntRun := true, resp := some 0, program := s.program.tail })

/-- TSTOP (R156, R154): the stopwatch freezes. SPLIT leaves CNT running; SHARED stops it. -/
def Obligations.TstopFreezesStopwatch : Prop :=
  decode 0x1100 = .ok .tstop ∧
  ∀ s : State, Ready s →
    (s.cfg.topology = .split →
      exec .tstop s = .next { s with swRun := false, resp := some 0, program := s.program.tail }) ∧
    (s.cfg.topology = .shared →
      exec .tstop s = .next { s with cntRun := false, resp := some 0, program := s.program.tail })

/-- TNOW (R157) returns CNT, whichever topology is set. -/
def Obligations.TnowReturnsCnt : Prop :=
  decode 0x1200 = .ok .tnow ∧
  ∀ s : State, Ready s → exec .tnow s = .next { s with resp := some s.cnt, program := s.program.tail }

/-- TREAD (R158, R152) returns the stopwatch: SWCNT when SPLIT, CNT when SHARED. -/
def Obligations.TreadReturnsStopwatch : Prop :=
  decode 0x1300 = .ok .tread ∧
  ∀ s : State, Ready s →
    exec .tread s =
      .next { s with resp := some (if s.cfg.topology = .split then s.swcnt else s.cnt), program := s.program.tail }

/-- SEND (43_uart_tx.md R221): idle, it loads the target one bit period on and the frame, sets TX_IE and writes nothing
else; busy, it holds: the block is unchanged, HOST stays at it and nothing is returned (log 4). -/
def Obligations.SendStartsFrameOrHolds : Prop :=
  (∀ b : Byte, decode (0x2000 ||| b.setWidth 16) = .ok (.send b)) ∧
  ∀ (s : State) (b : Byte), Ready s →
    (s.txIe = false →
      exec (.send b) s =
        .next { s with
          txccr := (s.cnt + s.cfg.bitp) % 2 ^ s.cfg.tmrW
          txsr := (b.setWidth 10 <<< 1) ||| 0x200
          txIe := true
          resp := some 0
          program := s.program.tail }) ∧
    (s.txIe = true → exec (.send b) s = .next { s with resp := none })

/-- RECV (44_uart_rx.md R255) returns RXBUF as it stands and clears RXAVAIL. It never holds. -/
def Obligations.RecvReturnsBufferAndClearsAvail : Prop :=
  decode 0x2100 = .ok .recv ∧
  ∀ s : State, Ready s →
    exec .recv s = .next { s with rxavail := false, resp := some s.rxbuf.toNat, program := s.program.tail }

/-- USTAT (R256, 30_encoding.md R106): the response bit for bit, and no effect. -/
def Obligations.UstatReturnsUartStatus : Prop :=
  decode 0x2200 = .ok .ustat ∧
  ∀ s : State, Ready s →
    exec .ustat s =
      .next { s with
        resp := some (s.txIe.toNat + 2 * s.rxavail.toNat + 4 * (if s.rxMode = .compare then 1 else 0) + 8 * s.txd.toNat +
          16 * s.rxd.toNat + 256 * s.txbitcnt.toNat + 4096 * s.rxbitcnt.toNat)
        program := s.program.tail }

/-- LPOLL (42_latch.md R189, 30_encoding.md R107): the response bit for bit, with the codes of BUTTON_ID (10_state.md R51)
written out, and no effect. -/
def Obligations.LpollReturnsLatchStatus : Prop :=
  decode 0x3000 = .ok .lpoll ∧
  ∀ s : State, Ready s →
    exec .lpoll s =
      .next { s with
        resp := some (s.sem.toNat +
          2 * (match s.buttonId with | .none => 0 | .start => 1 | .red => 2 | .green => 3 | .white => 4 | .blue => 5) +
          16 * (if s.lstate = .locked then 1 else 0) +
          32 * s.ifg.toNat + 1024 * s.ind.toNat +
          16384 * (if s.cfg.topology = .split then s.swRun else s.cntRun).toNat)
        program := s.program.tail }

/-- LELAP (R190) returns ELAPSED and has no effect. -/
def Obligations.LelapReturnsElapsed : Prop :=
  decode 0x3100 = .ok .lelap ∧
  ∀ s : State, Ready s → exec .lelap s = .next { s with resp := some s.elapsed, program := s.program.tail }

/-- LACK (R191) clears SEM and nothing else. -/
def Obligations.LackClearsSemaphoreOnly : Prop :=
  decode 0x3200 = .ok .lack ∧
  ∀ s : State, Ready s → exec .lack s = .next { s with sem := false, resp := some 0, program := s.program.tail }

/-- LZERO (R192) clears ELAPSED and nothing else. -/
def Obligations.LzeroClearsElapsedOnly : Prop :=
  decode 0x3300 = .ok .lzero ∧
  ∀ s : State, Ready s → exec .lzero s = .next { s with elapsed := 0, resp := some 0, program := s.program.tail }

/-- LCLRF (R193) clears all five edge flags and nothing else, and then no arbiter step is enabled. -/
def Obligations.LclrfClearsEdgeFlagsOnly : Prop :=
  decode 0x3400 = .ok .lclrf ∧
  ∀ s : State, Ready s →
    exec .lclrf s = .next { s with ifg := 0, resp := some 0, program := s.program.tail } ∧
    eventEnabled .arbitrate { s with ifg := 0, resp := some 0, program := s.program.tail } = false

/-- ICLR (R194) clears the indicators and nothing else. -/
def Obligations.IclrClearsIndicatorsOnly : Prop :=
  decode 0x3500 = .ok .iclr ∧
  ∀ s : State, Ready s → exec .iclr s = .next { s with ind := 0, resp := some 0, program := s.program.tail }

/-! ### Faults and reset -/

/-- HALT (60_exceptions.md R311): a reset without CAL_OK raises it; while HALTED = 1 no agent has a step and no command
runs; and of all turns only a reset leaves it, exactly when its CAL_OK is true (a stop as a fault and a reset as a turn are
the model's, log 10, log 9). -/
def Obligations.HaltStopsEveryAgentUntilReset : Prop :=
  (∀ (c : Config) (l : Launch), (State.launch c l).halted = !l.calOk) ∧
  ∀ s : State, s.cfg.ok = true → s.halted = true →
    (∀ i, exec i s = .fault .halt) ∧ (∀ t, notReset t = true → runTurn t s = .fault .halt) ∧
    (∀ l, ∃ t, runTurn (.reset l) s = .next t ∧ (t.halted = false ↔ l.calOk = true))

/-- Reset (70_reset_and_hazards.md R350, R351) of a block with parameters in range: the value of every element, whatever the unspecified elements and the pins
are drawn as, and the launch premise of the pins in `State.reset`. -/
def Obligations.ResetValuesOfEveryElement : Prop :=
  (∀ (c : Config) (l : Launch), c.ok = true →
    let s := State.launch c l
    s.cnt = 0 ∧ s.cntRun = true ∧ s.swcnt = 0 ∧ s.swRun = true ∧ s.txbitcnt = 10 ∧ s.txIe = false ∧ s.txd = true ∧
    s.rxbitcnt = 8 ∧ s.rxMode = .capture ∧ s.rxavail = false ∧ s.ifg = 0 ∧ s.lstate = .locked ∧ s.sem = false ∧
    s.buttonId = .none ∧ s.elapsed = 0 ∧ s.ind = 0 ∧ s.faultIll = false ∧ s.halted = !l.calOk ∧ s.cfg = c ∧
    s.rxd = l.rxd ∧ s.btnPin = l.btnPin ∧ s.rxbuf = l.rxbuf ∧ s.txsr = l.txsr ∧ s.rxsr = l.rxsr ∧
    s.txccr = l.txccr % 2 ^ c.tmrW ∧ s.rxccr = l.rxccr % 2 ^ c.tmrW) ∧
  State.reset.rxd = true ∧ State.reset.btnPin = 0b11111

/-- A reset turn puts every element of the block to its reset value and keeps HOST's words and the turns, whether or not the
block was halted (60_exceptions.md R311, 10_state.md R54; that a reset is a turn is the model's, log 9). -/
def Obligations.ResetTurnRelaunchesBlock : Prop :=
  ∀ (s : State) (l : Launch) (ts : List Turn), s.cfg.ok = true → s.turns = .reset l :: ts →
    step s = .next { State.launch s.cfg l with program := s.program, turns := ts, turnNo := s.turnNo }

/-- At reset with RXD = 1 USTAT reads 0x8A18, and LPOLL reads 0x4010 (30_encoding.md R106, R107, which mark it derived),
for every configuration and every draw. -/
def Obligations.StatusWordsAtReset : Prop :=
  ∀ (c : Config) (l : Launch), c.ok = true → l.calOk = true → l.rxd = true →
    exec .ustat (State.launch c l) = .next { State.launch c l with resp := some 0x8A18 } ∧
    exec .lpoll (State.launch c l) = .next { State.launch c l with resp := some 0x4010 }

/-- FAULT_ILL is sticky: no step but a reset clears it, and nothing sets it but HOST presenting an illegal word
(10_state.md R54). -/
def Obligations.FaultIllIsStickyUntilReset : Prop :=
  ∀ s t : State, step s = .next t → notReset (nextTurn s) = true →
    (s.faultIll = true → t.faultIll = true) ∧
    (s.faultIll = false → t.faultIll = true →
      nextTurn s = .host ∧ ∃ w ws, s.program = w :: ws ∧ ∀ i, decode w ≠ .ok i)

/-- The parameters never change (R352), and HALTED is written by reset only (R55). -/
def Obligations.ParametersAndHaltedAreFixedInARun : Prop :=
  ∀ s t : State, step s = .next t → t.cfg = s.cfg ∧ (notReset (nextTurn s) = true → t.halted = s.halted)

/-! ### Events -/

/-- BCLK_TICK with its TX and RX compare actions and the publication (41_timer.md R150, 43_uart_tx.md R223, 44_uart_rx.md
R252, R253): every element after the tick, whichever channels match; a tick with CNT_RUN = 0 has no effect. -/
def Obligations.BclkTickCountsAndRunsCompareActions : Prop :=
  ∀ (s : State) (ts : List Turn), Ready s → s.turns = .event .bclkTick :: ts →
    (s.cntRun = false → step s = .next { s with turns := ts }) ∧
    (s.cntRun = true →
      let c := (s.cnt + 1) % 2 ^ s.cfg.tmrW
      let tx := s.txIe = true ∧ c = s.txccr
      let rx := s.rxMode = .compare ∧ c = s.rxccr
      let sample := (s.rxsr >>> 1) ||| ((BitVec.ofBool s.rxd).setWidth 8 <<< 7)
      step s = .next { s with
        turns := ts
        cnt := c
        txccr := if tx then (s.txccr + s.cfg.bitp) % 2 ^ s.cfg.tmrW else s.txccr
        txd := if tx then s.txsr.getLsbD 0 else s.txd
        txsr := if tx then s.txsr >>> 1 else s.txsr
        txbitcnt := if tx then (if s.txbitcnt - 1 = 0 then 10 else s.txbitcnt - 1) else s.txbitcnt
        txIe := if tx ∧ s.txbitcnt - 1 = 0 then false else s.txIe
        rxccr := if rx then (s.rxccr + s.cfg.bitp) % 2 ^ s.cfg.tmrW else s.rxccr
        rxsr := if rx then sample else s.rxsr
        rxbitcnt := if rx then (if s.rxbitcnt - 1 = 0 then 8 else s.rxbitcnt - 1) else s.rxbitcnt
        rxbuf := if rx ∧ s.rxbitcnt - 1 = 0 then sample else s.rxbuf
        rxavail := if rx ∧ s.rxbitcnt - 1 = 0 then true else s.rxavail
        rxMode := if rx ∧ s.rxbitcnt - 1 = 0 then .capture else s.rxMode })

/-- Within one tick the order of the TX and RX channels is not observable (60_exceptions.md R316(a), marked derived
there). -/
def Obligations.CompareChannelsCommute : Prop :=
  ∀ s : State, rxChannel (txChannel s) = txChannel (rxChannel s)

/-- SWCLK_TICK (41_timer.md R151): SPLIT, SWCNT advances while SW_RUN = 1; SHARED, there is no such step. -/
def Obligations.SwclkTickAdvancesStopwatch : Prop :=
  ∀ (s : State) (ts : List Turn), Ready s → s.turns = .event .swclkTick :: ts →
    (s.cfg.topology = .split → s.swRun = true →
      step s = .next { s with turns := ts, swcnt := (s.swcnt + 1) % 2 ^ s.cfg.tmrW }) ∧
    (s.cfg.topology = .split → s.swRun = false → step s = .next { s with turns := ts }) ∧
    (s.cfg.topology = .shared → eventEnabled .swclkTick s = false)

/-- RXD_SET (44_uart_rx.md R250) with the start-edge capture (R251): a 1-to-0 change in CAPTURE sets the target one and a
half bit periods on and the mode to COMPARE; every other change writes RXD only. -/
def Obligations.RxdChangeCapturesStartEdge : Prop :=
  ∀ (s : State) (v : Bool) (ts : List Turn), Ready s → s.turns = .event (.rxdSet v) :: ts →
    (s.rxd = true ∧ v = false ∧ s.rxMode = .capture →
      step s = .next { s with
        turns := ts
        rxd := v
        rxccr := (s.cnt + s.cfg.bitp + s.cfg.halfp) % 2 ^ s.cfg.tmrW
        rxMode := .compare }) ∧
    (¬(s.rxd = true ∧ v = false ∧ s.rxMode = .capture) → step s = .next { s with turns := ts, rxd := v })

/-- PRESS(i) (42_latch.md R181, R180): it is enabled exactly when the pin is high, so pressing a pressed input again is no
step; and then the pin goes low, IFG[i] is set exactly when the input is enabled (START always, a colour while ARMED), and
nothing else changes. -/
def Obligations.PressSetsFlagOfEnabledInput : Prop :=
  ∀ (s : State) (b : Button),
    eventEnabled (.press b) s = pinHigh b s ∧
    ∀ ts : List Turn, Ready s → s.turns = .event (.press b) :: ts → pinHigh b s = true →
      ∃ t, step s = .next t ∧
        (∀ c, pinHigh c t = if c = b then false else pinHigh c s) ∧
        (∀ c, flagSet c t = if c = b ∧ (b = .start ∨ s.lstate = .armed) then true else flagSet c s) ∧
        t = { s with turns := ts, btnPin := t.btnPin, ifg := t.ifg }

/-- RELEASE(i) (R182): it is enabled exactly when the pin is low, so releasing a released input again is no step; and then the
pin goes high and nothing else changes. -/
def Obligations.ReleaseOnlyRaisesPin : Prop :=
  ∀ (s : State) (b : Button),
    eventEnabled (.release b) s = !pinHigh b s ∧
    ∀ ts : List Turn, Ready s → s.turns = .event (.release b) :: ts → pinHigh b s = false →
      ∃ t, step s = .next t ∧
        (∀ c, pinHigh c t = if c = b then true else pinHigh c s) ∧
        t = { s with turns := ts, btnPin := t.btnPin }

/-- The arbiter's winner is the pending input that PRIO lists first, for either GW_ORDER (R183, R184); there is one exactly
when IFG is not 0. -/
def Obligations.WinnerIsFirstPendingInPriorityOrder : Prop :=
  ∀ (s : State) (b : Button),
    (winner s = some b ↔
      flagSet b s = true ∧ ∀ c, flagSet c s = true → priorityRank s.cfg b ≤ priorityRank s.cfg c) ∧
    (winner s = none ↔ s.ifg = 0)

/-- An arbiter step while SEM = 1 clears IFG and changes no other state, a Start edge included (R185). -/
def Obligations.ArbiterDiscardsWhileSemaphoreSet : Prop :=
  ∀ (s : State) (ts : List Turn), Ready s → s.turns = .event .arbitrate :: ts → s.ifg ≠ 0 → s.sem = true →
    step s = .next { s with turns := ts, ifg := 0 }

/-- Start acceptance (R186, with R152 and R153): the snapshot before the restart, ARMED, indicators cleared, START in the
mailbox. START is the winner whenever its flag is set (60_exceptions.md R316(c)). -/
def Obligations.StartAcceptanceArmsAndSnapshots : Prop :=
  ∀ (s : State) (ts : List Turn), Ready s → s.turns = .event .arbitrate :: ts → flagSet .start s = true →
    s.sem = false →
    (s.cfg.topology = .split →
      step s = .next { s with
        turns := ts, elapsed := s.swcnt, swcnt := 0, swRun := true, lstate := .armed, ind := 0, buttonId := .start,
        sem := true, ifg := 0 }) ∧
    (s.cfg.topology = .shared →
      step s = .next { s with
        turns := ts, elapsed := s.cnt, cnt := 0, cntRun := true, lstate := .armed, ind := 0, buttonId := .start,
        sem := true, ifg := 0 })

/-- Colour acceptance (R187, with R152 and R154): the stopwatch stops, its value is the snapshot, the winner's indicator is
lit beside those lit before, LOCKED, the winner in the mailbox under its code w + 1. -/
def Obligations.ColourAcceptanceLocksAndSnapshots : Prop :=
  ∀ (s : State) (b : Button) (ts : List Turn), Ready s → s.turns = .event .arbitrate :: ts → s.sem = false →
    b ≠ .start → flagSet b s = true → (∀ c, flagSet c s = true → priorityRank s.cfg b ≤ priorityRank s.cfg c) →
    ∃ t, step s = .next t ∧ t.buttonId = idOfButton b ∧ (buttonCode t.buttonId).toNat = buttonIndex b + 1 ∧
      (∀ k, t.ind.getLsbD k = (s.ind.getLsbD k || decide (k + 1 = buttonIndex b))) ∧
      (s.cfg.topology = .split →
        t = { s with turns := ts, elapsed := s.swcnt, swRun := false, buttonId := t.buttonId, ind := t.ind,
                     lstate := .locked, sem := true, ifg := 0 }) ∧
      (s.cfg.topology = .shared →
        t = { s with turns := ts, elapsed := s.cnt, cntRun := false, buttonId := t.buttonId, ind := t.ind,
                     lstate := .locked, sem := true, ifg := 0 })

/-! ### Invariants and whole-machine rules -/

/-- The invariant holds at every reset of a block with parameters in range. -/
def Obligations.InvariantHoldsAtReset : Prop :=
  ∀ (c : Config) (l : Launch) (prog : List Word) (ts : List Turn) (n : Nat), c.ok = true →
    Inv { State.launch c l with program := prog, turns := ts, turnNo := n }

/-- Every step keeps the invariant of 10_state.md R59 (marked derived there) with the widths, the idle-high line, the latch's
masks and the compare targets. -/
def Obligations.StepKeepsInvariant : Prop :=
  ∀ s t : State, Inv s → step s = .next t → Inv t

/-- While an event is pending its mailbox is stable (20_memory.md R89, marked derived there): from SEM = 1, no step but a
reset changes BUTTON_ID, only HOST's LACK clears SEM, and only HOST's LZERO changes ELAPSED. -/
def Obligations.PendingMailboxIsStable : Prop :=
  ∀ s t : State, s.sem = true → step s = .next t → notReset (nextTurn s) = true →
    t.buttonId = s.buttonId ∧
    (t.sem = false → nextTurn s = .host ∧ s.program.head? = some 0x3200) ∧
    (t.elapsed ≠ s.elapsed → nextTurn s = .host ∧ s.program.head? = some 0x3300)

/-- The mailbox is published in one step (20_memory.md R88): SEM rises only in an arbiter step, and that step leaves the
winner of the flags before it, the stopwatch's value, the latch state and indicator of that winner, and no flag pending. -/
def Obligations.MailboxIsPublishedInOneStep : Prop :=
  ∀ s t : State, step s = .next t → s.sem = false → t.sem = true →
    nextTurn s = .event .arbitrate ∧ t.elapsed = swValue s ∧ t.ifg = 0 ∧
    ∃ b, winner s = some b ∧ t.buttonId = idOfButton b ∧ t.lstate = (if b = .start then .armed else .locked) ∧
      t.ind = (if b = .start then 0 else s.ind ||| indicatorBit b)

/-- Only a Start acceptance re-arms the colour inputs (42_latch.md R186, R191; 90_conflicts.md C6). -/
def Obligations.OnlyStartAcceptanceArms : Prop :=
  ∀ s t : State, step s = .next t → s.lstate = .locked → t.lstate = .armed →
    nextTurn s = .event .arbitrate ∧ s.sem = false ∧ flagSet .start s = true ∧ t.buttonId = .start

/-- BUTTON_ID names a button from the first acceptance on: no step but a reset brings back NONE (10_state.md R51,
R59(f)). -/
def Obligations.ButtonIdNeverReturnsToNone : Prop :=
  ∀ s t : State, step s = .next t → notReset (nextTurn s) = true → s.buttonId ≠ .none → t.buttonId ≠ .none

/-- No step writes TXD but the TX compare action of a tick, and a reset (43_uart_tx.md R225, 10_state.md R39). -/
def Obligations.OnlyTxCompareActionDrivesTxd : Prop :=
  ∀ s t : State, step s = .next t → notReset (nextTurn s) = true → t.txd ≠ s.txd →
    nextTurn s = .event .bclkTick ∧ s.cntRun = true ∧ s.txIe = true ∧
    (s.cnt + 1) % 2 ^ s.cfg.tmrW = s.txccr ∧ t.txd = s.txsr.getLsbD 0

/-- Under SPLIT only a tick of BCLK moves CNT, and only that and an accepted SEND touch the transmitter (10_state.md R31,
R32, R35 to R39). -/
def Obligations.SplitKeepsTransmitterFromOtherSteps : Prop :=
  ∀ s t : State, step s = .next t → s.cfg.topology = .split → notReset (nextTurn s) = true →
    nextTurn s ≠ .event .bclkTick →
    t.cnt = s.cnt ∧ t.cntRun = s.cntRun ∧
    (txView t = txView s ∨
      (nextTurn s = .host ∧ s.txIe = false ∧ ∃ b ws, s.program = encode (.send b) :: ws ∧ t.program = ws))

/-- Under SPLIT the UART does not depend on the latch or the stopwatch: two states that agree on the time base, the
transmitter and the receiver still agree after the same event or the same command, whatever the rest is, and the commands
that read the time base or the UART return the same (the independence of 90_conflicts.md C4). -/
def Obligations.SplitUartIgnoresLatchAndStopwatch : Prop :=
  ∀ (s s' : State), s.cfg.topology = .split → txView s = txView s' → rxView s = rxView s' →
    (∀ e : Event, txView (runEvent e s) = txView (runEvent e s') ∧ rxView (runEvent e s) = rxView (runEvent e s')) ∧
    (Ready s → Ready s' → ∀ i : Instr, ∃ t t', exec i s = .next t ∧ exec i s' = .next t' ∧
      txView t = txView t' ∧ rxView t = rxView t' ∧
      (i = .tnow ∨ i = .recv ∨ i = .ustat ∨ (∃ b, i = .send b) → t.resp = t'.resp))

/-- The read commands change no element of the block, and one repeated with no step between returns the same
(20_memory.md R86, marked derived there). -/
def Obligations.ReadsAreIdempotent : Prop :=
  ∀ (i : Instr) (s t u : State), i ∈ [Instr.tnow, .tread, .ustat, .lpoll, .lelap, .fltrd] →
    exec i s = .next t → exec i t = .next u → blockState t = blockState s ∧ u.resp = t.resp

/-! ### Runs -/

/-- A SEND that holds is held until a tick of BCLK ends the frame (43_uart_tx.md R222): while TX_IE = 1, any turn but a
reset leaves TX_IE = 1 unless it is such a tick, and HOST's turns leave it at its SEND. -/
def Obligations.OnlyBclkTickLiftsSendHold : Prop :=
  ∀ (s t : State) (b : Byte) (ws : List Word), s.txIe = true → s.program = encode (.send b) :: ws →
    step s = .next t → notReset (nextTurn s) = true →
    t.program = s.program ∧ (nextTurn s = .host → blockState t = blockState s) ∧
    (t.txIe = false → nextTurn s = .event .bclkTick ∧ s.cntRun = true ∧ (s.cnt + 1) % 2 ^ s.cfg.tmrW = s.txccr)

/-- The TX timeline (43_uart_tx.md R224, marked derived there), under SPLIT and with any steps of the other agents and of HOST
between the ticks: after n < 10*BITP ticks since SEND was accepted, TX_IE = 1, CNT has advanced by n, and the line carries
slot n/BITP - 1 (its old level before the first); the tick number 10*BITP drives the stop bit and clears TX_IE. -/
def Obligations.TxTimelineUnderAnyInterleaving : Prop :=
  ∀ (s s0 : State) (b : Byte) (ts : List Turn), Inv s → s.cfg.topology = .split → s.txIe = false →
    exec (.send b) s = .next s0 → ts.all notReset = true →
    ts.count (.event .bclkTick) < 10 * s.cfg.bitp →
    ∃ t, runTurns ts s0 = .next t ∧
      let n := ts.count (.event .bclkTick)
      t.txIe = true ∧ t.cnt = (s.cnt + n) % 2 ^ s.cfg.tmrW ∧
      t.txd = (if n < s.cfg.bitp then s.txd else slot b (n / s.cfg.bitp - 1)) ∧
      (n + 1 = 10 * s.cfg.bitp → (bclkTick t).txIe = false ∧ (bclkTick t).txbitcnt = 10 ∧ (bclkTick t).txd = true)

/-- Reception (44_uart_rx.md R257, marked derived there): a well-formed sender's frame of any byte, driven into an idle
receiver while CNT runs, is published whole, and the receiver is idle again with the line high. -/
def Obligations.DrivenFrameIsReceived : Prop :=
  ∀ (s : State) (b : Byte), s.cfg.ok = true → s.cntRun = true → s.rxMode = .capture → s.rxbitcnt = 8 → s.rxd = true →
    let t := driveFrame b s
    t.rxbuf = b ∧ t.rxavail = true ∧ t.rxMode = .capture ∧ t.rxbitcnt = 8 ∧ t.rxd = true ∧ t.cntRun = true

/-- Loopback (95_test_vectors.md V5): with RXD wired to TXD, a byte sent is published after exactly 9*BITP + HALFP ticks, and
RXBUF does not change before. -/
def Obligations.LoopbackReturnsTheByteSent : Prop :=
  ∀ (s t : State) (b : Byte), Inv s → s.cntRun = true → s.txIe = false → s.rxMode = .capture → s.rxd = true →
    exec (.send b) s = .next t →
    (loopback (9 * s.cfg.bitp + s.cfg.halfp) t).rxbuf = b ∧
    (loopback (9 * s.cfg.bitp + s.cfg.halfp) t).rxavail = true ∧
    ∀ n, n < 9 * s.cfg.bitp + s.cfg.halfp → (loopback n t).rxbuf = s.rxbuf

/-- Progress (00_scope.md R12): under SPLIT, in every run without a reset in which BCLK is fair, a frame in flight ends. -/
def Obligations.FrameEndsInEveryFairRun : Prop :=
  ∀ (turn : Nat → Turn) (r : Nat → State), IsRun turn r → Inv (r 0) → (r 0).cfg.topology = .split →
    (∀ n, notReset (turn n) = true) → BclkFair turn r → ∀ n, (r n).txIe = true → ∃ m, n < m ∧ (r m).txIe = false

/-- The SHARED hang (70_reset_and_hazards.md R354, marked derived there; 93_implementation_defined.md K24): with the counter
stopped, a frame in flight, SEM = 1 and HOST at a SEND, no turns but a reset ever complete a command, end the frame or
clear SEM. -/
def Obligations.SharedStopHangsHostForGood : Prop :=
  ∀ (s : State) (b : Byte) (ws : List Word) (ts : List Turn), Ready s → s.cfg.topology = .shared → s.cntRun = false →
    s.txIe = true → s.sem = true → s.program = encode (.send b) :: ws → ts.all notReset = true →
    ∃ t, runTurns ts s = .next t ∧ t.program = s.program ∧ txView t = txView s ∧ mailbox t = mailbox s

/-- A SHARED start, by TSTART or by a Start acceptance, moves the time base of a frame in flight (70_reset_and_hazards.md
R355, marked derived there): CNT counts from 0, so the next compare action of either channel comes with the tick number
TXCCR or RXCCR, and with the tick number 2^TMR_W where the target is 0 (41_timer.md R159), and not before. -/
def Obligations.SharedStartDelaysNextSlot : Prop :=
  ∀ s t : State, Ready s → s.cfg.topology = .shared → s.txccr < 2 ^ s.cfg.tmrW → s.rxccr < 2 ^ s.cfg.tmrW →
    (exec .tstart s = .next t ∨
      ((∃ ts, s.turns = .event .arbitrate :: ts) ∧ flagSet .start s = true ∧ s.sem = false ∧ step s = .next t)) →
    let first (target : Nat) : Nat := if target = 0 then 2 ^ s.cfg.tmrW else target
    (∀ n, n < 2 ^ s.cfg.tmrW → (ticks n t).cnt = n) ∧
    (s.txIe = true →
      (∀ n, n < first s.txccr →
        (ticks n t).txsr = s.txsr ∧ (ticks n t).txd = s.txd ∧ (ticks n t).txbitcnt = s.txbitcnt ∧ (ticks n t).txIe = true) ∧
      (ticks (first s.txccr) t).txsr = s.txsr >>> 1 ∧ (ticks (first s.txccr) t).txd = s.txsr.getLsbD 0 ∧
      (ticks (first s.txccr) t).txccr = (s.txccr + s.cfg.bitp) % 2 ^ s.cfg.tmrW) ∧
    (s.rxMode = .compare →
      (∀ n, n < first s.rxccr →
        (ticks n t).rxsr = s.rxsr ∧ (ticks n t).rxbitcnt = s.rxbitcnt ∧ (ticks n t).rxMode = .compare) ∧
      (ticks (first s.rxccr) t).rxsr = (s.rxsr >>> 1) ||| ((BitVec.ofBool s.rxd).setWidth 8 <<< 7) ∧
      (ticks (first s.rxccr) t).rxccr = (s.rxccr + s.cfg.bitp) % 2 ^ s.cfg.tmrW)

/-! ### The reference host -/

/-- The reference host reads the mailbox only behind the semaphore (45_host_loop.md R280). It issues LELAP, and an LPOLL other
than the one that waits for SEM, only in the phases behind the semaphore; it comes to them only from an LPOLL that returned
SEM = 1, and leaves them only by its LACK; and in them the block's SEM is 1, whatever the other agents do between its
commands and wherever the host echoes (the phases are the model's, log 15, log 16). -/
def Obligations.HostReadsOnlyBehindSemaphore : Prop :=
  (∀ p : HostPhase, hostCommand p = some .lelap → behindSemaphore p = true) ∧
  (∀ p : HostPhase, hostCommand p = some .lpoll → p = .waitSem ∨ behindSemaphore p = true) ∧
  ∀ (rng : Nat → Nat → Nat) (c d : Console),
    (consoleHostTurn rng c = .next d →
      (ConsoleInv c → ConsoleInv d) ∧
      (behindSemaphore c.phase = false → behindSemaphore d.phase = true →
        c.phase = .waitSem ∧ ∃ v, d.block.resp = some v ∧ v.testBit 0 = true) ∧
      (behindSemaphore c.phase = true → behindSemaphore d.phase = false →
        hostCommand c.phase = some .lack ∧ d.block.sem = false)) ∧
    ∀ e, consoleEventTurn e c = .next d → d.phase = c.phase ∧ (ConsoleInv c → ConsoleInv d)

/-- Tick-to-millisecond conversion (R285): the exact floor for the scale of any host, and at the reference scale 244 / 1000
at most 15990 for a 16-bit snapshot, and the source's worked example with its message. -/
def Obligations.MillisecondsAreExactFloor : Prop :=
  (∀ (h : HostConfig) (t : Nat), 0 < h.msDen →
    msOfTicks h t * h.msDen ≤ t * h.msNum ∧ t * h.msNum < (msOfTicks h t + 1) * h.msDen) ∧
  ∀ h : HostConfig, h.msNum = 244 → h.msDen = 1000 →
    (∀ t, t < 2 ^ 16 → msOfTicks h t ≤ 15990) ∧ msOfTicks h 65535 = 15990 ∧ msOfTicks h 4096 = 999 ∧
    reportBytes h .red 4096 = some [0x39, 0x39, 0x39, 0x5F, 0x6D, 0x73, 0x5F, 0x52, 0x2A]

/-- Decimal rendering (R284; 92_eei_decisions.md D33): digits only, most significant first, no leading zero, and 0 as
`0`. -/
def Obligations.DecimalRenderingIsExact : Prop :=
  decimalBytes 0 = [0x30] ∧
  ∀ n, decimalValue (decimalBytes n) = n ∧ (∀ d ∈ decimalBytes n, 0x30 ≤ d.toNat ∧ d.toNat ≤ 0x39) ∧
    ((decimalBytes n).head? = some 0x30 → n = 0)

/-- The round-start delay (R286, R287): for every generator a draw becomes the delay exactly when it is in the interval, in
either reading, and is drawn again otherwise; a configuration is accepted exactly when some draw is in the interval, which
is when R287 does not refuse it; and a refused host does not boot and has no turn. The draws as phases with the generator as
an argument, and the refusal at the boot and at every turn of a console, are the model's (log 15, log 23). -/
def Obligations.DelayDrawIsWithinBounds : Prop :=
  ∀ h : HostConfig,
    (∀ (rng : Nat → Nat → Nat) (seed k : Nat),
      phaseAdvance h rng (.draw seed k) =
        if (h.delayIncl = true ∧ h.delayLo ≤ rng seed k ∨ h.delayIncl = false ∧ h.delayLo < rng seed k) ∧
            rng seed k < h.delayHi
        then .delay (rng seed k) else .draw seed (k + 1)) ∧
    (delayConfigOk h = true ↔
      ∃ d, (h.delayIncl = true ∧ h.delayLo ≤ d ∨ h.delayIncl = false ∧ h.delayLo < d) ∧ d < h.delayHi) ∧
    ((h.delayIncl = true ∧ h.delayHi ≤ h.delayLo ∨ h.delayIncl = false ∧ h.delayHi ≤ h.delayLo + 1) →
      (∀ (c : Config) (l : Launch), consoleBoot h c l = .error .emptyDelayInterval) ∧
      ∀ (c : Console), c.host = h →
        (∀ rng, consoleHostTurn rng c = .refused (.host .emptyDelayInterval)) ∧
        ∀ e, consoleEventTurn e c = .refused (.host .emptyDelayInterval))
end

