-- ==== Sys2Proof/Laws/State.lean ====
section
/-! SUPPORT. One lemma per named update of State: every field it does not write is as before. Each is a conjunction that
simp takes field by field. -/

namespace Sys2Proof.Machine

/-- A command's completion writes the response and HOST's position only. -/
@[simp] theorem respond_frame (v : Nat) (s : State) :
    (respond v s).cfg = s.cfg ∧ (respond v s).cnt = s.cnt ∧ (respond v s).cntRun = s.cntRun ∧
    (respond v s).swcnt = s.swcnt ∧ (respond v s).swRun = s.swRun ∧ (respond v s).txccr = s.txccr ∧
    (respond v s).txsr = s.txsr ∧ (respond v s).txbitcnt = s.txbitcnt ∧ (respond v s).txIe = s.txIe ∧
    (respond v s).txd = s.txd ∧ (respond v s).rxccr = s.rxccr ∧ (respond v s).rxsr = s.rxsr ∧
    (respond v s).rxbitcnt = s.rxbitcnt ∧ (respond v s).rxMode = s.rxMode ∧ (respond v s).rxbuf = s.rxbuf ∧
    (respond v s).rxavail = s.rxavail ∧ (respond v s).rxd = s.rxd ∧ (respond v s).btnPin = s.btnPin ∧
    (respond v s).ifg = s.ifg ∧ (respond v s).lstate = s.lstate ∧ (respond v s).sem = s.sem ∧
    (respond v s).buttonId = s.buttonId ∧ (respond v s).elapsed = s.elapsed ∧ (respond v s).ind = s.ind ∧
    (respond v s).faultIll = s.faultIll ∧ (respond v s).halted = s.halted ∧ (respond v s).turns = s.turns ∧
    (respond v s).turnNo = s.turnNo := by
  and_intros <;> rfl

/-- A hold writes the response only. -/
@[simp] theorem hold_frame (s : State) :
    (hold s).cfg = s.cfg ∧ (hold s).cnt = s.cnt ∧ (hold s).cntRun = s.cntRun ∧ (hold s).swcnt = s.swcnt ∧
    (hold s).swRun = s.swRun ∧ (hold s).txccr = s.txccr ∧ (hold s).txsr = s.txsr ∧ (hold s).txbitcnt = s.txbitcnt ∧
    (hold s).txIe = s.txIe ∧ (hold s).txd = s.txd ∧ (hold s).rxccr = s.rxccr ∧ (hold s).rxsr = s.rxsr ∧
    (hold s).rxbitcnt = s.rxbitcnt ∧ (hold s).rxMode = s.rxMode ∧ (hold s).rxbuf = s.rxbuf ∧
    (hold s).rxavail = s.rxavail ∧ (hold s).rxd = s.rxd ∧ (hold s).btnPin = s.btnPin ∧ (hold s).ifg = s.ifg ∧
    (hold s).lstate = s.lstate ∧ (hold s).sem = s.sem ∧ (hold s).buttonId = s.buttonId ∧
    (hold s).elapsed = s.elapsed ∧ (hold s).ind = s.ind ∧ (hold s).faultIll = s.faultIll ∧
    (hold s).halted = s.halted ∧ (hold s).program = s.program ∧ (hold s).turns = s.turns ∧ (hold s).turnNo = s.turnNo := by
  and_intros <;> rfl

/-- Raising ILLEGAL_CMD writes FAULT_ILL only. -/
@[simp] theorem raiseIllegal_frame (s : State) :
    (raiseFault .illegalCmd s).cfg = s.cfg ∧ (raiseFault .illegalCmd s).cnt = s.cnt ∧
    (raiseFault .illegalCmd s).cntRun = s.cntRun ∧ (raiseFault .illegalCmd s).swcnt = s.swcnt ∧
    (raiseFault .illegalCmd s).swRun = s.swRun ∧ (raiseFault .illegalCmd s).txccr = s.txccr ∧
    (raiseFault .illegalCmd s).txsr = s.txsr ∧ (raiseFault .illegalCmd s).txbitcnt = s.txbitcnt ∧
    (raiseFault .illegalCmd s).txIe = s.txIe ∧ (raiseFault .illegalCmd s).txd = s.txd ∧
    (raiseFault .illegalCmd s).rxccr = s.rxccr ∧ (raiseFault .illegalCmd s).rxsr = s.rxsr ∧
    (raiseFault .illegalCmd s).rxbitcnt = s.rxbitcnt ∧ (raiseFault .illegalCmd s).rxMode = s.rxMode ∧
    (raiseFault .illegalCmd s).rxbuf = s.rxbuf ∧ (raiseFault .illegalCmd s).rxavail = s.rxavail ∧
    (raiseFault .illegalCmd s).rxd = s.rxd ∧ (raiseFault .illegalCmd s).btnPin = s.btnPin ∧
    (raiseFault .illegalCmd s).ifg = s.ifg ∧ (raiseFault .illegalCmd s).lstate = s.lstate ∧
    (raiseFault .illegalCmd s).sem = s.sem ∧ (raiseFault .illegalCmd s).buttonId = s.buttonId ∧
    (raiseFault .illegalCmd s).elapsed = s.elapsed ∧ (raiseFault .illegalCmd s).ind = s.ind ∧
    (raiseFault .illegalCmd s).halted = s.halted ∧ (raiseFault .illegalCmd s).program = s.program ∧
    (raiseFault .illegalCmd s).resp = s.resp ∧ (raiseFault .illegalCmd s).turns = s.turns ∧
    (raiseFault .illegalCmd s).turnNo = s.turnNo := by
  and_intros <;> rfl

/-- `sw_start()` writes a counter and its run flag only. -/
@[simp] theorem swStart_frame (s : State) :
    (swStart s).cfg = s.cfg ∧ (swStart s).txccr = s.txccr ∧ (swStart s).txsr = s.txsr ∧
    (swStart s).txbitcnt = s.txbitcnt ∧ (swStart s).txIe = s.txIe ∧ (swStart s).txd = s.txd ∧
    (swStart s).rxccr = s.rxccr ∧ (swStart s).rxsr = s.rxsr ∧ (swStart s).rxbitcnt = s.rxbitcnt ∧
    (swStart s).rxMode = s.rxMode ∧ (swStart s).rxbuf = s.rxbuf ∧ (swStart s).rxavail = s.rxavail ∧
    (swStart s).rxd = s.rxd ∧ (swStart s).btnPin = s.btnPin ∧ (swStart s).ifg = s.ifg ∧
    (swStart s).lstate = s.lstate ∧ (swStart s).sem = s.sem ∧ (swStart s).buttonId = s.buttonId ∧
    (swStart s).elapsed = s.elapsed ∧ (swStart s).ind = s.ind ∧ (swStart s).faultIll = s.faultIll ∧
    (swStart s).halted = s.halted ∧ (swStart s).program = s.program ∧ (swStart s).resp = s.resp ∧
    (swStart s).turns = s.turns ∧ (swStart s).turnNo = s.turnNo := by
  unfold swStart; split <;> and_intros <;> rfl

/-- `sw_stop()` writes a run flag only. -/
@[simp] theorem swStop_frame (s : State) :
    (swStop s).cfg = s.cfg ∧ (swStop s).cnt = s.cnt ∧ (swStop s).swcnt = s.swcnt ∧ (swStop s).txccr = s.txccr ∧
    (swStop s).txsr = s.txsr ∧ (swStop s).txbitcnt = s.txbitcnt ∧ (swStop s).txIe = s.txIe ∧ (swStop s).txd = s.txd ∧
    (swStop s).rxccr = s.rxccr ∧ (swStop s).rxsr = s.rxsr ∧ (swStop s).rxbitcnt = s.rxbitcnt ∧
    (swStop s).rxMode = s.rxMode ∧ (swStop s).rxbuf = s.rxbuf ∧ (swStop s).rxavail = s.rxavail ∧
    (swStop s).rxd = s.rxd ∧ (swStop s).btnPin = s.btnPin ∧ (swStop s).ifg = s.ifg ∧ (swStop s).lstate = s.lstate ∧
    (swStop s).sem = s.sem ∧ (swStop s).buttonId = s.buttonId ∧ (swStop s).elapsed = s.elapsed ∧
    (swStop s).ind = s.ind ∧ (swStop s).faultIll = s.faultIll ∧ (swStop s).halted = s.halted ∧
    (swStop s).program = s.program ∧ (swStop s).resp = s.resp ∧ (swStop s).turns = s.turns ∧
    (swStop s).turnNo = s.turnNo := by
  unfold swStop; split <;> and_intros <;> rfl

/-- Taking a turn moves the turns only. -/
@[simp] theorem takeTurn_frame (s : State) :
    (takeTurn s).cfg = s.cfg ∧ (takeTurn s).cnt = s.cnt ∧ (takeTurn s).cntRun = s.cntRun ∧
    (takeTurn s).swcnt = s.swcnt ∧ (takeTurn s).swRun = s.swRun ∧ (takeTurn s).txccr = s.txccr ∧
    (takeTurn s).txsr = s.txsr ∧ (takeTurn s).txbitcnt = s.txbitcnt ∧ (takeTurn s).txIe = s.txIe ∧
    (takeTurn s).txd = s.txd ∧ (takeTurn s).rxccr = s.rxccr ∧ (takeTurn s).rxsr = s.rxsr ∧
    (takeTurn s).rxbitcnt = s.rxbitcnt ∧ (takeTurn s).rxMode = s.rxMode ∧ (takeTurn s).rxbuf = s.rxbuf ∧
    (takeTurn s).rxavail = s.rxavail ∧ (takeTurn s).rxd = s.rxd ∧ (takeTurn s).btnPin = s.btnPin ∧
    (takeTurn s).ifg = s.ifg ∧ (takeTurn s).lstate = s.lstate ∧ (takeTurn s).sem = s.sem ∧
    (takeTurn s).buttonId = s.buttonId ∧ (takeTurn s).elapsed = s.elapsed ∧ (takeTurn s).ind = s.ind ∧
    (takeTurn s).faultIll = s.faultIll ∧ (takeTurn s).halted = s.halted ∧ (takeTurn s).program = s.program ∧
    (takeTurn s).resp = s.resp := by
  unfold takeTurn; split <;> and_intros <;> rfl

/-- An accepted SEND writes TXCCR, TXSR and TX_IE only. -/
@[simp] theorem loadFrame_frame (b : Byte) (s : State) :
    (loadFrame b s).cfg = s.cfg ∧ (loadFrame b s).cnt = s.cnt ∧ (loadFrame b s).cntRun = s.cntRun ∧
    (loadFrame b s).swcnt = s.swcnt ∧ (loadFrame b s).swRun = s.swRun ∧ (loadFrame b s).txbitcnt = s.txbitcnt ∧
    (loadFrame b s).txd = s.txd ∧ (loadFrame b s).rxccr = s.rxccr ∧ (loadFrame b s).rxsr = s.rxsr ∧
    (loadFrame b s).rxbitcnt = s.rxbitcnt ∧ (loadFrame b s).rxMode = s.rxMode ∧ (loadFrame b s).rxbuf = s.rxbuf ∧
    (loadFrame b s).rxavail = s.rxavail ∧ (loadFrame b s).rxd = s.rxd ∧ (loadFrame b s).btnPin = s.btnPin ∧
    (loadFrame b s).ifg = s.ifg ∧ (loadFrame b s).lstate = s.lstate ∧ (loadFrame b s).sem = s.sem ∧
    (loadFrame b s).buttonId = s.buttonId ∧ (loadFrame b s).elapsed = s.elapsed ∧ (loadFrame b s).ind = s.ind ∧
    (loadFrame b s).faultIll = s.faultIll ∧ (loadFrame b s).halted = s.halted ∧ (loadFrame b s).program = s.program ∧
    (loadFrame b s).resp = s.resp ∧ (loadFrame b s).turns = s.turns ∧ (loadFrame b s).turnNo = s.turnNo := by
  and_intros <;> rfl

/-- The TX compare action writes the transmitter only. -/
@[simp] theorem txCompareAction_frame (s : State) :
    (txCompareAction s).cfg = s.cfg ∧ (txCompareAction s).cnt = s.cnt ∧ (txCompareAction s).cntRun = s.cntRun ∧
    (txCompareAction s).swcnt = s.swcnt ∧ (txCompareAction s).swRun = s.swRun ∧ (txCompareAction s).rxccr = s.rxccr ∧
    (txCompareAction s).rxsr = s.rxsr ∧ (txCompareAction s).rxbitcnt = s.rxbitcnt ∧
    (txCompareAction s).rxMode = s.rxMode ∧ (txCompareAction s).rxbuf = s.rxbuf ∧
    (txCompareAction s).rxavail = s.rxavail ∧ (txCompareAction s).rxd = s.rxd ∧
    (txCompareAction s).btnPin = s.btnPin ∧ (txCompareAction s).ifg = s.ifg ∧ (txCompareAction s).lstate = s.lstate ∧
    (txCompareAction s).sem = s.sem ∧ (txCompareAction s).buttonId = s.buttonId ∧
    (txCompareAction s).elapsed = s.elapsed ∧ (txCompareAction s).ind = s.ind ∧
    (txCompareAction s).faultIll = s.faultIll ∧ (txCompareAction s).halted = s.halted ∧
    (txCompareAction s).program = s.program ∧ (txCompareAction s).resp = s.resp ∧
    (txCompareAction s).turns = s.turns ∧ (txCompareAction s).turnNo = s.turnNo := by
  and_intros <;> rfl

/-- The RX sample writes RXSR, RXCCR and RXBITCNT only. -/
@[simp] theorem rxSample_frame (s : State) :
    (rxSample s).cfg = s.cfg ∧ (rxSample s).cnt = s.cnt ∧ (rxSample s).cntRun = s.cntRun ∧
    (rxSample s).swcnt = s.swcnt ∧ (rxSample s).swRun = s.swRun ∧ (rxSample s).txccr = s.txccr ∧
    (rxSample s).txsr = s.txsr ∧ (rxSample s).txbitcnt = s.txbitcnt ∧ (rxSample s).txIe = s.txIe ∧
    (rxSample s).txd = s.txd ∧ (rxSample s).rxMode = s.rxMode ∧ (rxSample s).rxbuf = s.rxbuf ∧
    (rxSample s).rxavail = s.rxavail ∧ (rxSample s).rxd = s.rxd ∧ (rxSample s).btnPin = s.btnPin ∧
    (rxSample s).ifg = s.ifg ∧ (rxSample s).lstate = s.lstate ∧ (rxSample s).sem = s.sem ∧
    (rxSample s).buttonId = s.buttonId ∧ (rxSample s).elapsed = s.elapsed ∧ (rxSample s).ind = s.ind ∧
    (rxSample s).faultIll = s.faultIll ∧ (rxSample s).halted = s.halted ∧ (rxSample s).program = s.program ∧
    (rxSample s).resp = s.resp ∧ (rxSample s).turns = s.turns ∧ (rxSample s).turnNo = s.turnNo := by
  and_intros <;> rfl

/-- Publication writes the buffer, the counter and the mode only. -/
@[simp] theorem publish_frame (s : State) :
    (publish s).cfg = s.cfg ∧ (publish s).cnt = s.cnt ∧ (publish s).cntRun = s.cntRun ∧ (publish s).swcnt = s.swcnt ∧
    (publish s).swRun = s.swRun ∧ (publish s).txccr = s.txccr ∧ (publish s).txsr = s.txsr ∧
    (publish s).txbitcnt = s.txbitcnt ∧ (publish s).txIe = s.txIe ∧ (publish s).txd = s.txd ∧
    (publish s).rxccr = s.rxccr ∧ (publish s).rxsr = s.rxsr ∧ (publish s).rxd = s.rxd ∧
    (publish s).btnPin = s.btnPin ∧ (publish s).ifg = s.ifg ∧ (publish s).lstate = s.lstate ∧
    (publish s).sem = s.sem ∧ (publish s).buttonId = s.buttonId ∧ (publish s).elapsed = s.elapsed ∧
    (publish s).ind = s.ind ∧ (publish s).faultIll = s.faultIll ∧ (publish s).halted = s.halted ∧
    (publish s).program = s.program ∧ (publish s).resp = s.resp ∧ (publish s).turns = s.turns ∧
    (publish s).turnNo = s.turnNo := by
  and_intros <;> rfl

/-- The RX compare action writes the receiver only. -/
@[simp] theorem rxCompareAction_frame (s : State) :
    (rxCompareAction s).cfg = s.cfg ∧ (rxCompareAction s).cnt = s.cnt ∧ (rxCompareAction s).cntRun = s.cntRun ∧
    (rxCompareAction s).swcnt = s.swcnt ∧ (rxCompareAction s).swRun = s.swRun ∧ (rxCompareAction s).txccr = s.txccr ∧
    (rxCompareAction s).txsr = s.txsr ∧ (rxCompareAction s).txbitcnt = s.txbitcnt ∧
    (rxCompareAction s).txIe = s.txIe ∧ (rxCompareAction s).txd = s.txd ∧ (rxCompareAction s).rxd = s.rxd ∧
    (rxCompareAction s).btnPin = s.btnPin ∧ (rxCompareAction s).ifg = s.ifg ∧ (rxCompareAction s).lstate = s.lstate ∧
    (rxCompareAction s).sem = s.sem ∧ (rxCompareAction s).buttonId = s.buttonId ∧
    (rxCompareAction s).elapsed = s.elapsed ∧ (rxCompareAction s).ind = s.ind ∧
    (rxCompareAction s).faultIll = s.faultIll ∧ (rxCompareAction s).halted = s.halted ∧
    (rxCompareAction s).program = s.program ∧ (rxCompareAction s).resp = s.resp ∧
    (rxCompareAction s).turns = s.turns ∧ (rxCompareAction s).turnNo = s.turnNo := by
  unfold rxCompareAction; split <;> simp

/-- The start-edge capture writes RXCCR and RX_MODE only. -/
@[simp] theorem startEdgeCapture_frame (s : State) :
    (startEdgeCapture s).cfg = s.cfg ∧ (startEdgeCapture s).cnt = s.cnt ∧ (startEdgeCapture s).cntRun = s.cntRun ∧
    (startEdgeCapture s).swcnt = s.swcnt ∧ (startEdgeCapture s).swRun = s.swRun ∧
    (startEdgeCapture s).txccr = s.txccr ∧ (startEdgeCapture s).txsr = s.txsr ∧
    (startEdgeCapture s).txbitcnt = s.txbitcnt ∧ (startEdgeCapture s).txIe = s.txIe ∧
    (startEdgeCapture s).txd = s.txd ∧ (startEdgeCapture s).rxsr = s.rxsr ∧
    (startEdgeCapture s).rxbitcnt = s.rxbitcnt ∧ (startEdgeCapture s).rxbuf = s.rxbuf ∧
    (startEdgeCapture s).rxavail = s.rxavail ∧ (startEdgeCapture s).rxd = s.rxd ∧
    (startEdgeCapture s).btnPin = s.btnPin ∧ (startEdgeCapture s).ifg = s.ifg ∧
    (startEdgeCapture s).lstate = s.lstate ∧ (startEdgeCapture s).sem = s.sem ∧
    (startEdgeCapture s).buttonId = s.buttonId ∧ (startEdgeCapture s).elapsed = s.elapsed ∧
    (startEdgeCapture s).ind = s.ind ∧ (startEdgeCapture s).faultIll = s.faultIll ∧
    (startEdgeCapture s).halted = s.halted ∧ (startEdgeCapture s).program = s.program ∧
    (startEdgeCapture s).resp = s.resp ∧ (startEdgeCapture s).turns = s.turns ∧ (startEdgeCapture s).turnNo = s.turnNo := by
  and_intros <;> rfl

/-- An RXD change writes RXD and the capture only. -/
@[simp] theorem rxdSet_frame (v : Bool) (s : State) :
    (rxdSet v s).cfg = s.cfg ∧ (rxdSet v s).cnt = s.cnt ∧ (rxdSet v s).cntRun = s.cntRun ∧
    (rxdSet v s).swcnt = s.swcnt ∧ (rxdSet v s).swRun = s.swRun ∧ (rxdSet v s).txccr = s.txccr ∧
    (rxdSet v s).txsr = s.txsr ∧ (rxdSet v s).txbitcnt = s.txbitcnt ∧ (rxdSet v s).txIe = s.txIe ∧
    (rxdSet v s).txd = s.txd ∧ (rxdSet v s).rxsr = s.rxsr ∧ (rxdSet v s).rxbitcnt = s.rxbitcnt ∧
    (rxdSet v s).rxbuf = s.rxbuf ∧ (rxdSet v s).rxavail = s.rxavail ∧ (rxdSet v s).btnPin = s.btnPin ∧
    (rxdSet v s).ifg = s.ifg ∧ (rxdSet v s).lstate = s.lstate ∧ (rxdSet v s).sem = s.sem ∧
    (rxdSet v s).buttonId = s.buttonId ∧ (rxdSet v s).elapsed = s.elapsed ∧ (rxdSet v s).ind = s.ind ∧
    (rxdSet v s).faultIll = s.faultIll ∧ (rxdSet v s).halted = s.halted ∧ (rxdSet v s).program = s.program ∧
    (rxdSet v s).resp = s.resp ∧ (rxdSet v s).turns = s.turns ∧ (rxdSet v s).turnNo = s.turnNo := by
  unfold rxdSet; split <;> simp

/-- The increment writes CNT only. -/
@[simp] theorem countTick_frame (s : State) :
    (countTick s).cfg = s.cfg ∧ (countTick s).cntRun = s.cntRun ∧ (countTick s).swcnt = s.swcnt ∧
    (countTick s).swRun = s.swRun ∧ (countTick s).txccr = s.txccr ∧ (countTick s).txsr = s.txsr ∧
    (countTick s).txbitcnt = s.txbitcnt ∧ (countTick s).txIe = s.txIe ∧ (countTick s).txd = s.txd ∧
    (countTick s).rxccr = s.rxccr ∧ (countTick s).rxsr = s.rxsr ∧ (countTick s).rxbitcnt = s.rxbitcnt ∧
    (countTick s).rxMode = s.rxMode ∧ (countTick s).rxbuf = s.rxbuf ∧ (countTick s).rxavail = s.rxavail ∧
    (countTick s).rxd = s.rxd ∧ (countTick s).btnPin = s.btnPin ∧ (countTick s).ifg = s.ifg ∧
    (countTick s).lstate = s.lstate ∧ (countTick s).sem = s.sem ∧ (countTick s).buttonId = s.buttonId ∧
    (countTick s).elapsed = s.elapsed ∧ (countTick s).ind = s.ind ∧ (countTick s).faultIll = s.faultIll ∧
    (countTick s).halted = s.halted ∧ (countTick s).program = s.program ∧ (countTick s).resp = s.resp ∧
    (countTick s).turns = s.turns ∧ (countTick s).turnNo = s.turnNo := by
  and_intros <;> rfl

/-- The TX channel writes the transmitter only. -/
@[simp] theorem txChannel_frame (s : State) :
    (txChannel s).cfg = s.cfg ∧ (txChannel s).cnt = s.cnt ∧ (txChannel s).cntRun = s.cntRun ∧
    (txChannel s).swcnt = s.swcnt ∧ (txChannel s).swRun = s.swRun ∧ (txChannel s).rxccr = s.rxccr ∧
    (txChannel s).rxsr = s.rxsr ∧ (txChannel s).rxbitcnt = s.rxbitcnt ∧ (txChannel s).rxMode = s.rxMode ∧
    (txChannel s).rxbuf = s.rxbuf ∧ (txChannel s).rxavail = s.rxavail ∧ (txChannel s).rxd = s.rxd ∧
    (txChannel s).btnPin = s.btnPin ∧ (txChannel s).ifg = s.ifg ∧ (txChannel s).lstate = s.lstate ∧
    (txChannel s).sem = s.sem ∧ (txChannel s).buttonId = s.buttonId ∧ (txChannel s).elapsed = s.elapsed ∧
    (txChannel s).ind = s.ind ∧ (txChannel s).faultIll = s.faultIll ∧ (txChannel s).halted = s.halted ∧
    (txChannel s).program = s.program ∧ (txChannel s).resp = s.resp ∧ (txChannel s).turns = s.turns ∧
    (txChannel s).turnNo = s.turnNo := by
  unfold txChannel; split <;> simp

/-- The RX channel writes the receiver only. -/
@[simp] theorem rxChannel_frame (s : State) :
    (rxChannel s).cfg = s.cfg ∧ (rxChannel s).cnt = s.cnt ∧ (rxChannel s).cntRun = s.cntRun ∧
    (rxChannel s).swcnt = s.swcnt ∧ (rxChannel s).swRun = s.swRun ∧ (rxChannel s).txccr = s.txccr ∧
    (rxChannel s).txsr = s.txsr ∧ (rxChannel s).txbitcnt = s.txbitcnt ∧ (rxChannel s).txIe = s.txIe ∧
    (rxChannel s).txd = s.txd ∧ (rxChannel s).rxd = s.rxd ∧ (rxChannel s).btnPin = s.btnPin ∧
    (rxChannel s).ifg = s.ifg ∧ (rxChannel s).lstate = s.lstate ∧ (rxChannel s).sem = s.sem ∧
    (rxChannel s).buttonId = s.buttonId ∧ (rxChannel s).elapsed = s.elapsed ∧ (rxChannel s).ind = s.ind ∧
    (rxChannel s).faultIll = s.faultIll ∧ (rxChannel s).halted = s.halted ∧ (rxChannel s).program = s.program ∧
    (rxChannel s).resp = s.resp ∧ (rxChannel s).turns = s.turns ∧ (rxChannel s).turnNo = s.turnNo := by
  unfold rxChannel; split <;> simp

/-- A BCLK tick writes CNT and the UART only. -/
@[simp] theorem bclkTick_frame (s : State) :
    (bclkTick s).cfg = s.cfg ∧ (bclkTick s).cntRun = s.cntRun ∧ (bclkTick s).swcnt = s.swcnt ∧
    (bclkTick s).swRun = s.swRun ∧ (bclkTick s).rxd = s.rxd ∧ (bclkTick s).btnPin = s.btnPin ∧
    (bclkTick s).ifg = s.ifg ∧ (bclkTick s).lstate = s.lstate ∧ (bclkTick s).sem = s.sem ∧
    (bclkTick s).buttonId = s.buttonId ∧ (bclkTick s).elapsed = s.elapsed ∧ (bclkTick s).ind = s.ind ∧
    (bclkTick s).faultIll = s.faultIll ∧ (bclkTick s).halted = s.halted ∧ (bclkTick s).program = s.program ∧
    (bclkTick s).resp = s.resp ∧ (bclkTick s).turns = s.turns ∧ (bclkTick s).turnNo = s.turnNo := by
  unfold bclkTick; split <;> simp

/-- A SWCLK tick writes SWCNT only. -/
@[simp] theorem swclkTick_frame (s : State) :
    (swclkTick s).cfg = s.cfg ∧ (swclkTick s).cnt = s.cnt ∧ (swclkTick s).cntRun = s.cntRun ∧
    (swclkTick s).swRun = s.swRun ∧ (swclkTick s).txccr = s.txccr ∧ (swclkTick s).txsr = s.txsr ∧
    (swclkTick s).txbitcnt = s.txbitcnt ∧ (swclkTick s).txIe = s.txIe ∧ (swclkTick s).txd = s.txd ∧
    (swclkTick s).rxccr = s.rxccr ∧ (swclkTick s).rxsr = s.rxsr ∧ (swclkTick s).rxbitcnt = s.rxbitcnt ∧
    (swclkTick s).rxMode = s.rxMode ∧ (swclkTick s).rxbuf = s.rxbuf ∧ (swclkTick s).rxavail = s.rxavail ∧
    (swclkTick s).rxd = s.rxd ∧ (swclkTick s).btnPin = s.btnPin ∧ (swclkTick s).ifg = s.ifg ∧
    (swclkTick s).lstate = s.lstate ∧ (swclkTick s).sem = s.sem ∧ (swclkTick s).buttonId = s.buttonId ∧
    (swclkTick s).elapsed = s.elapsed ∧ (swclkTick s).ind = s.ind ∧ (swclkTick s).faultIll = s.faultIll ∧
    (swclkTick s).halted = s.halted ∧ (swclkTick s).program = s.program ∧ (swclkTick s).resp = s.resp ∧
    (swclkTick s).turns = s.turns ∧ (swclkTick s).turnNo = s.turnNo := by
  unfold swclkTick; split <;> simp

/-- A press writes the pin and the flag only. -/
@[simp] theorem press_frame (b : Button) (s : State) :
    (press b s).cfg = s.cfg ∧ (press b s).cnt = s.cnt ∧ (press b s).cntRun = s.cntRun ∧ (press b s).swcnt = s.swcnt ∧
    (press b s).swRun = s.swRun ∧ (press b s).txccr = s.txccr ∧ (press b s).txsr = s.txsr ∧
    (press b s).txbitcnt = s.txbitcnt ∧ (press b s).txIe = s.txIe ∧ (press b s).txd = s.txd ∧
    (press b s).rxccr = s.rxccr ∧ (press b s).rxsr = s.rxsr ∧ (press b s).rxbitcnt = s.rxbitcnt ∧
    (press b s).rxMode = s.rxMode ∧ (press b s).rxbuf = s.rxbuf ∧ (press b s).rxavail = s.rxavail ∧
    (press b s).rxd = s.rxd ∧ (press b s).lstate = s.lstate ∧ (press b s).sem = s.sem ∧
    (press b s).buttonId = s.buttonId ∧ (press b s).elapsed = s.elapsed ∧ (press b s).ind = s.ind ∧
    (press b s).faultIll = s.faultIll ∧ (press b s).halted = s.halted ∧ (press b s).program = s.program ∧
    (press b s).resp = s.resp ∧ (press b s).turns = s.turns ∧ (press b s).turnNo = s.turnNo := by
  and_intros <;> rfl

/-- A release writes the pin only. -/
@[simp] theorem release_frame (b : Button) (s : State) :
    (release b s).cfg = s.cfg ∧ (release b s).cnt = s.cnt ∧ (release b s).cntRun = s.cntRun ∧
    (release b s).swcnt = s.swcnt ∧ (release b s).swRun = s.swRun ∧ (release b s).txccr = s.txccr ∧
    (release b s).txsr = s.txsr ∧ (release b s).txbitcnt = s.txbitcnt ∧ (release b s).txIe = s.txIe ∧
    (release b s).txd = s.txd ∧ (release b s).rxccr = s.rxccr ∧ (release b s).rxsr = s.rxsr ∧
    (release b s).rxbitcnt = s.rxbitcnt ∧ (release b s).rxMode = s.rxMode ∧ (release b s).rxbuf = s.rxbuf ∧
    (release b s).rxavail = s.rxavail ∧ (release b s).rxd = s.rxd ∧ (release b s).ifg = s.ifg ∧
    (release b s).lstate = s.lstate ∧ (release b s).sem = s.sem ∧ (release b s).buttonId = s.buttonId ∧
    (release b s).elapsed = s.elapsed ∧ (release b s).ind = s.ind ∧ (release b s).faultIll = s.faultIll ∧
    (release b s).halted = s.halted ∧ (release b s).program = s.program ∧ (release b s).resp = s.resp ∧
    (release b s).turns = s.turns ∧ (release b s).turnNo = s.turnNo := by
  and_intros <;> rfl

/-- Start acceptance writes the latch and the stopwatch only. -/
@[simp] theorem acceptStart_frame (s : State) :
    (acceptStart s).cfg = s.cfg ∧ (acceptStart s).txccr = s.txccr ∧ (acceptStart s).txsr = s.txsr ∧
    (acceptStart s).txbitcnt = s.txbitcnt ∧ (acceptStart s).txIe = s.txIe ∧ (acceptStart s).txd = s.txd ∧
    (acceptStart s).rxccr = s.rxccr ∧ (acceptStart s).rxsr = s.rxsr ∧ (acceptStart s).rxbitcnt = s.rxbitcnt ∧
    (acceptStart s).rxMode = s.rxMode ∧ (acceptStart s).rxbuf = s.rxbuf ∧ (acceptStart s).rxavail = s.rxavail ∧
    (acceptStart s).rxd = s.rxd ∧ (acceptStart s).btnPin = s.btnPin ∧ (acceptStart s).faultIll = s.faultIll ∧
    (acceptStart s).halted = s.halted ∧ (acceptStart s).program = s.program ∧ (acceptStart s).resp = s.resp ∧
    (acceptStart s).turns = s.turns ∧ (acceptStart s).turnNo = s.turnNo := by
  simp [acceptStart]

/-- Colour acceptance writes the latch and the stopwatch only. -/
@[simp] theorem acceptColour_frame (b : Button) (s : State) :
    (acceptColour b s).cfg = s.cfg ∧ (acceptColour b s).cnt = s.cnt ∧ (acceptColour b s).swcnt = s.swcnt ∧
    (acceptColour b s).txccr = s.txccr ∧ (acceptColour b s).txsr = s.txsr ∧
    (acceptColour b s).txbitcnt = s.txbitcnt ∧ (acceptColour b s).txIe = s.txIe ∧ (acceptColour b s).txd = s.txd ∧
    (acceptColour b s).rxccr = s.rxccr ∧ (acceptColour b s).rxsr = s.rxsr ∧
    (acceptColour b s).rxbitcnt = s.rxbitcnt ∧ (acceptColour b s).rxMode = s.rxMode ∧
    (acceptColour b s).rxbuf = s.rxbuf ∧ (acceptColour b s).rxavail = s.rxavail ∧ (acceptColour b s).rxd = s.rxd ∧
    (acceptColour b s).btnPin = s.btnPin ∧ (acceptColour b s).faultIll = s.faultIll ∧
    (acceptColour b s).halted = s.halted ∧ (acceptColour b s).program = s.program ∧
    (acceptColour b s).resp = s.resp ∧ (acceptColour b s).turns = s.turns ∧ (acceptColour b s).turnNo = s.turnNo := by
  simp [acceptColour]

/-- The arbiter writes the latch and the stopwatch only. -/
@[simp] theorem arbitrate_frame (s : State) :
    (arbitrate s).cfg = s.cfg ∧ (arbitrate s).txccr = s.txccr ∧ (arbitrate s).txsr = s.txsr ∧
    (arbitrate s).txbitcnt = s.txbitcnt ∧ (arbitrate s).txIe = s.txIe ∧ (arbitrate s).txd = s.txd ∧
    (arbitrate s).rxccr = s.rxccr ∧ (arbitrate s).rxsr = s.rxsr ∧ (arbitrate s).rxbitcnt = s.rxbitcnt ∧
    (arbitrate s).rxMode = s.rxMode ∧ (arbitrate s).rxbuf = s.rxbuf ∧ (arbitrate s).rxavail = s.rxavail ∧
    (arbitrate s).rxd = s.rxd ∧ (arbitrate s).btnPin = s.btnPin ∧ (arbitrate s).faultIll = s.faultIll ∧
    (arbitrate s).halted = s.halted ∧ (arbitrate s).program = s.program ∧ (arbitrate s).resp = s.resp ∧
    (arbitrate s).turns = s.turns ∧ (arbitrate s).turnNo = s.turnNo := by
  unfold arbitrate; split
  · simp
  · split
    · simp
    · split <;> simp

end Sys2Proof.Machine
end

