-- ==== Sys2Proof/Laws/Ops.lean ====
section
/-! SUPPORT. The lemmas of the shared operations: what each one writes, and when the gate lets a step through. -/

namespace Sys2Proof.Machine

/-- The constraints of R8 as inequalities, and the two frame sizes. -/
theorem config_ok_iff (c : Config) :
    c.ok = true ↔ 16 ≤ c.tmrW ∧ 2 ≤ c.bitp ∧ 1 ≤ c.halfp ∧ c.halfp < c.bitp ∧ c.bitp + c.halfp < 2 ^ c.tmrW ∧
      11 * c.bitp < 2 ^ c.tmrW ∧ c.txFrameBits = 10 ∧ c.rxDataBits = 8 := by
  simp [Config.ok, Config.tmrWOk, Config.bitpOk, Config.halfpOk, Config.rxSpanOk, Config.txSpanOk,
    Config.txFrameBitsOk, Config.rxDataBitsOk, and_assoc]

/-- The reload values of a configuration in range are those the rules write out (R223, R253, R350). -/
theorem reload_of_ok {c : Config} (h : c.ok = true) : c.txReload = 10 ∧ c.rxReload = 8 := by
  obtain ⟨-, -, -, -, -, -, ht, hr⟩ := (config_ok_iff c).mp h
  simp [Config.txReload, Config.rxReload, ht, hr]

/-- A counter addition stays within the width. -/
theorem addT_lt (c : Config) (a b : Nat) : addT c a b < 2 ^ c.tmrW := Nat.mod_lt _ (Nat.two_pow_pos _)

theorem guarded_ready {s : State} (h : Ready s) (k : Host.Outcome State Fault Refusal) : guarded s k = k := by
  simp [guarded, h.1, h.2]

theorem guarded_halted {s : State} (hc : s.cfg.ok = true) (hh : s.halted = true)
    (k : Host.Outcome State Fault Refusal) : guarded s k = .fault .halt := by
  simp [guarded, hc, hh]

theorem guarded_badConfig {s : State} (hc : s.cfg.ok = false) (k : Host.Outcome State Fault Refusal) :
    guarded s k = .refused .configOutOfRange := by
  simp [guarded, hc]

/-- The gate answers a next state exactly when the block is ready and what is behind it does. -/
theorem guarded_next_iff {s t : State} {k : Host.Outcome State Fault Refusal} :
    guarded s k = .next t ↔ Ready s ∧ k = .next t := by
  cases hc : s.cfg.ok <;> cases hh : s.halted <;> simp [guarded, Ready, hc, hh]

theorem command_ready {s : State} (h : Ready s) (act : State → State) (val : State → Nat) :
    command s act val = .next (respond (val s) (act s)) := guarded_ready h _

theorem command_next_iff {s t : State} {act : State → State} {val : State → Nat} :
    command s act val = .next t ↔ Ready s ∧ t = respond (val s) (act s) := by
  rw [command, guarded_next_iff, Host.Outcome.next.injEq, eq_comm (a := t)]

@[simp] theorem respond_resp (v : Nat) (s : State) : (respond v s).resp = some v := rfl
@[simp] theorem respond_program (v : Nat) (s : State) : (respond v s).program = s.program.tail := rfl
@[simp] theorem hold_resp (s : State) : (hold s).resp = none := rfl
@[simp] theorem raiseIllegal_faultIll (s : State) : (raiseFault .illegalCmd s).faultIll = true := rfl

theorem swStart_split {s : State} (h : s.cfg.topology = .split) : swStart s = { s with swcnt := 0, swRun := true } := by
  simp [swStart, h]

theorem swStart_shared {s : State} (h : s.cfg.topology = .shared) : swStart s = { s with cnt := 0, cntRun := true } := by
  simp [swStart, h]

theorem swStop_split {s : State} (h : s.cfg.topology = .split) : swStop s = { s with swRun := false } := by
  simp [swStop, h]

theorem swStop_shared {s : State} (h : s.cfg.topology = .shared) : swStop s = { s with cntRun := false } := by
  simp [swStop, h]

theorem swValue_split {s : State} (h : s.cfg.topology = .split) : swValue s = s.swcnt := by simp [swValue, h]
theorem swValue_shared {s : State} (h : s.cfg.topology = .shared) : swValue s = s.cnt := by simp [swValue, h]

/-- The stopwatch's value after a stop is the one before it (R154). -/
@[simp] theorem swValue_swStop (s : State) : swValue (swStop s) = swValue s := by
  cases h : s.cfg.topology <;> simp [swValue, swStop, h]

theorem swValue_lt {s : State} (h : WidthInv s) : swValue s < 2 ^ s.cfg.tmrW := by
  cases ht : s.cfg.topology <;> simp [swValue, ht, h.1, h.2.1]

theorem nextTurn_cons {s : State} {t : Turn} {ts : List Turn} (h : s.turns = t :: ts) : nextTurn s = t := by
  simp [nextTurn, h]

theorem takeTurn_cons {s : State} {t : Turn} {ts : List Turn} (h : s.turns = t :: ts) :
    takeTurn s = { s with turns := ts } := by
  simp [takeTurn, h]

/-- Taking a turn is no change of the block. -/
@[simp] theorem swValue_takeTurn (s : State) : swValue (takeTurn s) = swValue s := by
  cases h : s.cfg.topology <;> simp [swValue, h]

@[simp] theorem winner_takeTurn (s : State) : winner (takeTurn s) = winner s := by simp [winner, flagSet]

/-- What an accepted SEND writes (R221). -/
@[simp] theorem loadFrame_writes (b : Byte) (s : State) :
    (loadFrame b s).txccr = addT s.cfg s.cnt s.cfg.bitp ∧ (loadFrame b s).txsr = frame b ∧
      (loadFrame b s).txIe = true := ⟨rfl, rfl, rfl⟩

/-- What the TX compare action writes (R223). -/
theorem txCompareAction_writes (s : State) :
    (txCompareAction s).txccr = addT s.cfg s.txccr s.cfg.bitp ∧ (txCompareAction s).txd = s.txsr.getLsbD 0 ∧
      (txCompareAction s).txsr = s.txsr >>> 1 ∧
      (txCompareAction s).txbitcnt = (if s.txbitcnt - 1 = 0 then s.cfg.txReload else s.txbitcnt - 1) ∧
      (txCompareAction s).txIe = (if s.txbitcnt - 1 = 0 then false else s.txIe) := ⟨rfl, rfl, rfl, rfl, rfl⟩

/-- What the RX compare action writes, the publication included (R252, R253). -/
theorem rxCompareAction_writes (s : State) :
    let sample := (s.rxsr >>> 1) ||| ((BitVec.ofBool s.rxd).setWidth 8 <<< 7)
    (rxCompareAction s).rxccr = addT s.cfg s.rxccr s.cfg.bitp ∧ (rxCompareAction s).rxsr = sample ∧
      (rxCompareAction s).rxbitcnt = (if s.rxbitcnt - 1 = 0 then s.cfg.rxReload else s.rxbitcnt - 1) ∧
      (rxCompareAction s).rxbuf = (if s.rxbitcnt - 1 = 0 then sample else s.rxbuf) ∧
      (rxCompareAction s).rxavail = (if s.rxbitcnt - 1 = 0 then true else s.rxavail) ∧
      (rxCompareAction s).rxMode = (if s.rxbitcnt - 1 = 0 then .capture else s.rxMode) := by
  unfold rxCompareAction
  by_cases h : s.rxbitcnt - 1 = 0
  · have hn : (rxSample s).rxbitcnt = 0 := h
    simp only [if_pos hn, if_pos h]
    exact ⟨rfl, rfl, rfl, rfl, rfl, rfl⟩
  · have hn : ¬(rxSample s).rxbitcnt = 0 := h
    simp only [if_neg hn, if_neg h]
    exact ⟨rfl, rfl, rfl, rfl, rfl, rfl⟩

/-- CNT after a tick (R150). -/
theorem bclkTick_cnt (s : State) : (bclkTick s).cnt = if s.cntRun then addT s.cfg s.cnt 1 else s.cnt := by
  unfold bclkTick; split <;> simp [countTick]

theorem bclkTick_stopped {s : State} (h : s.cntRun = false) : bclkTick s = s := by simp [bclkTick, h]

/-- The mode after a tick in which the RX channel has no match. -/
theorem txChannel_noMatch {s : State} (h : ¬(s.txIe = true ∧ s.cnt = s.txccr)) : txChannel s = s := by
  simp only [txChannel, h, if_false]

theorem rxChannel_noMatch {s : State} (h : ¬(s.rxMode = .compare ∧ s.cnt = s.rxccr)) : rxChannel s = s := by
  simp only [rxChannel, h, if_false]

/-- The RX channel looks at nothing that the TX channel writes. -/
theorem rxView_txChannel (s : State) : rxView (txChannel s) = rxView s := by simp

/-- The cases of an arbiter step (R184 to R187). -/
theorem arbitrate_cases (s : State) :
    (winner s = none ∧ arbitrate s = s) ∨
    (winner s ≠ none ∧ s.sem = true ∧ arbitrate s = { s with ifg := 0 }) ∨
    (winner s = some .start ∧ s.sem = false ∧ arbitrate s = acceptStart s) ∨
    (∃ b, b ≠ .start ∧ winner s = some b ∧ s.sem = false ∧ arbitrate s = acceptColour b s) := by
  unfold arbitrate
  cases hw : winner s with
  | none => simp
  | some b =>
    cases hs : s.sem with
    | true => simp
    | false => cases b <;> simp

/-- An event either has its effect or leaves the block as it is (log 3). -/
theorem runEvent_cases (e : Event) (s : State) :
    (eventEnabled e s = true ∧ runEvent e s = eventEffect e s) ∨ (eventEnabled e s = false ∧ runEvent e s = s) := by
  cases h : eventEnabled e s <;> simp [runEvent, h]

/-- No event writes the parameters, the faults, HOST's side or the turns. -/
@[simp] theorem runEvent_frame (e : Event) (s : State) :
    (runEvent e s).cfg = s.cfg ∧ (runEvent e s).faultIll = s.faultIll ∧ (runEvent e s).halted = s.halted ∧
      (runEvent e s).program = s.program ∧ (runEvent e s).resp = s.resp ∧ (runEvent e s).turns = s.turns ∧
      (runEvent e s).turnNo = s.turnNo := by
  unfold runEvent
  cases e <;> simp only [eventEffect] <;> split <;> simp

@[simp] theorem ticks_zero (s : State) : ticks 0 s = s := rfl

theorem ticks_succ (n : Nat) (s : State) : ticks (n + 1) s = bclkTick (ticks n s) := by
  induction n generalizing s with
  | zero => rfl
  | succ n ih => exact ih (bclkTick s)

theorem ticks_add (m n : Nat) (s : State) : ticks (m + n) s = ticks n (ticks m s) := by
  induction n with
  | zero => rfl
  | succ n ih => rw [← Nat.add_assoc, ticks_succ, ih, ticks_succ]

/-- Ticks write CNT and the UART only. -/
@[simp] theorem ticks_frame (n : Nat) (s : State) :
    (ticks n s).cfg = s.cfg ∧ (ticks n s).cntRun = s.cntRun ∧ (ticks n s).rxd = s.rxd ∧
      (ticks n s).halted = s.halted ∧ (ticks n s).program = s.program ∧ (ticks n s).turns = s.turns := by
  induction n with
  | zero => simp
  | succ n ih => simp [ticks_succ, ih]

end Sys2Proof.Machine
end

