-- ==== Sys2Proof/Laws/PerInstr.lean ====
section
/-! SUPPORT. Statements about every instruction as syntax, one lemma per constructor. -/

namespace Sys2Proof.Laws.RoundTrip

/-- A well-formed instruction's word decodes to it. -/
def Statement (i : Instr) : Prop := i.wellFormed = true → decode (encode i) = .ok i

theorem nop : Statement .nop := fun _ => by decide
theorem fltrd : Statement .fltrd := fun _ => by decide
theorem tstart : Statement .tstart := fun _ => by decide
theorem tstop : Statement .tstop := fun _ => by decide
theorem tnow : Statement .tnow := fun _ => by decide
theorem tread : Statement .tread := fun _ => by decide
theorem send (b : Byte) : Statement (.send b) := fun _ => by revert b; decide
theorem recv : Statement .recv := fun _ => by decide
theorem ustat : Statement .ustat := fun _ => by decide
theorem lpoll : Statement .lpoll := fun _ => by decide
theorem lelap : Statement .lelap := fun _ => by decide
theorem lack : Statement .lack := fun _ => by decide
theorem lzero : Statement .lzero := fun _ => by decide
theorem lclrf : Statement .lclrf := fun _ => by decide
theorem iclr : Statement .iclr := fun _ => by decide

end Sys2Proof.Laws.RoundTrip
end

