-- ==== Sys2Proof/Laws/Step.lean ====
section
/-! SUPPORT. What one command, one turn and one step can do, each said once. -/

namespace Sys2Proof.Machine

/-- The effect of a command that takes its step. -/
def commandEffect : Instr → State → State
  | .nop => id
  | .fltrd => id
  | .tstart => swStart
  | .tstop => swStop
  | .tnow => id
  | .tread => id
  | .send b => loadFrame b
  | .recv => fun s => { s with rxavail := false }
  | .ustat => id
  | .lpoll => id
  | .lelap => id
  | .lack => fun s => { s with sem := false }
  | .lzero => fun s => { s with elapsed := 0 }
  | .lclrf => fun s => { s with ifg := 0 }
  | .iclr => fun s => { s with ind := 0 }

/-- The response of a command that takes its step, read from the state before. -/
def commandResponse : Instr → State → Nat
  | .nop => fun _ => 0
  | .fltrd => fun s => (fltrdWord s).toNat
  | .tstart => fun _ => 0
  | .tstop => fun _ => 0
  | .tnow => fun s => s.cnt
  | .tread => swValue
  | .send _ => fun _ => 0
  | .recv => fun s => s.rxbuf.toNat
  | .ustat => fun s => (ustatWord s).toNat
  | .lpoll => fun s => (lpollWord s).toNat
  | .lelap => fun s => s.elapsed
  | .lack => fun _ => 0
  | .lzero => fun _ => 0
  | .lclrf => fun _ => 0
  | .iclr => fun _ => 0

/-- Only a SEND while TX_IE = 1 is held (R222). -/
def isHeld : Instr → State → Bool
  | .send _, s => s.txIe
  | _, _ => false

/-- Every command is the shared command operation, or a hold. -/
theorem exec_eq (i : Instr) (s : State) :
    exec i s = if isHeld i s then guarded s (.next (hold s)) else command s (commandEffect i) (commandResponse i) := by
  cases i <;> rfl

/-- A command answers a next state exactly when the block is ready, and then it is held or has its effect and response. -/
theorem exec_next_iff {i : Instr} {s t : State} :
    exec i s = .next t ↔ Ready s ∧
      ((isHeld i s = true ∧ t = hold s) ∨
        (isHeld i s = false ∧ t = respond (commandResponse i s) (commandEffect i s))) := by
  rw [exec_eq]
  cases isHeld i s with
  | true => simp only [if_true, guarded_next_iff, Host.Outcome.next.injEq, eq_comm (a := t)]; simp
  | false => simp only [Bool.false_eq_true, if_false, command_next_iff]; simp

/-- A ready block's command that is not held completes with its response and effect. -/
theorem exec_completes {i : Instr} {s : State} (h : Ready s) (hh : isHeld i s = false) :
    exec i s = .next (respond (commandResponse i s) (commandEffect i s)) :=
  exec_next_iff.mpr ⟨h, .inr ⟨hh, rfl⟩⟩

/-- A ready block's held command leaves it and HOST where they are. -/
theorem exec_holds {i : Instr} {s : State} (h : Ready s) (hh : isHeld i s = true) : exec i s = .next (hold s) :=
  exec_next_iff.mpr ⟨h, .inl ⟨hh, rfl⟩⟩

/-- Outside R8, and while halted, no command runs. -/
theorem exec_badConfig {i : Instr} {s : State} (h : s.cfg.ok = false) : exec i s = .refused .configOutOfRange := by
  rw [exec_eq]; split <;> exact guarded_badConfig h _

theorem exec_halted {i : Instr} {s : State} (hc : s.cfg.ok = true) (hh : s.halted = true) :
    exec i s = .fault .halt := by
  rw [exec_eq]; split <;> exact guarded_halted hc hh _

/-- What no command writes: the parameters, the receiver but RXAVAIL, the pins, the line TXD, LSTATE, BUTTON_ID, the faults,
and the turns. -/
@[simp] theorem commandEffect_frame (i : Instr) (s : State) :
    (commandEffect i s).cfg = s.cfg ∧ (commandEffect i s).txbitcnt = s.txbitcnt ∧ (commandEffect i s).txd = s.txd ∧
      (commandEffect i s).rxccr = s.rxccr ∧ (commandEffect i s).rxsr = s.rxsr ∧
      (commandEffect i s).rxbitcnt = s.rxbitcnt ∧ (commandEffect i s).rxMode = s.rxMode ∧
      (commandEffect i s).rxbuf = s.rxbuf ∧ (commandEffect i s).rxd = s.rxd ∧ (commandEffect i s).btnPin = s.btnPin ∧
      (commandEffect i s).lstate = s.lstate ∧ (commandEffect i s).buttonId = s.buttonId ∧
      (commandEffect i s).faultIll = s.faultIll ∧ (commandEffect i s).halted = s.halted ∧
      (commandEffect i s).program = s.program ∧ (commandEffect i s).resp = s.resp ∧
      (commandEffect i s).turns = s.turns ∧ (commandEffect i s).turnNo = s.turnNo := by
  cases i <;> simp [commandEffect]

/-- Decoding an instruction's word gives it back. -/
theorem decode_encode (i : Instr) : decode (encode i) = .ok i := by
  cases i with
  | nop => exact Laws.RoundTrip.nop rfl
  | fltrd => exact Laws.RoundTrip.fltrd rfl
  | tstart => exact Laws.RoundTrip.tstart rfl
  | tstop => exact Laws.RoundTrip.tstop rfl
  | tnow => exact Laws.RoundTrip.tnow rfl
  | tread => exact Laws.RoundTrip.tread rfl
  | send b => exact Laws.RoundTrip.send b rfl
  | recv => exact Laws.RoundTrip.recv rfl
  | ustat => exact Laws.RoundTrip.ustat rfl
  | lpoll => exact Laws.RoundTrip.lpoll rfl
  | lelap => exact Laws.RoundTrip.lelap rfl
  | lack => exact Laws.RoundTrip.lack rfl
  | lzero => exact Laws.RoundTrip.lzero rfl
  | lclrf => exact Laws.RoundTrip.lclrf rfl
  | iclr => exact Laws.RoundTrip.iclr rfl

/-- What a turn can do to a state: the reset, an event, HOST with no word left, an illegal word, a held SEND, or a command
that takes its step. -/
inductive TurnEffect (s : State) : Turn → State → Prop
  | reset (l : Launch) : TurnEffect s (.reset l) (relaunch l s)
  | event (e : Event) : TurnEffect s (.event e) (runEvent e s)
  | idle (hp : s.program = []) : TurnEffect s .host s
  | illegal (w : Word) (ws : List Word) (hp : s.program = w :: ws) (hd : ∀ i, decode w ≠ .ok i) :
      TurnEffect s .host (respond 0 (raiseFault .illegalCmd s))
  | held (w : Word) (ws : List Word) (b : Byte) (hp : s.program = w :: ws) (hd : decode w = .ok (.send b))
      (hb : s.txIe = true) : TurnEffect s .host (hold s)
  | command (w : Word) (ws : List Word) (i : Instr) (hp : s.program = w :: ws) (hd : decode w = .ok i)
      (hb : isHeld i s = false) : TurnEffect s .host (respond (commandResponse i s) (commandEffect i s))

/-- If a turn answers a next state, the parameters are in range, the block is not halted unless it is a reset, and the state
is one of the turn's effects. -/
theorem runTurn_next {t : Turn} {s s' : State} (h : runTurn t s = .next s') :
    s.cfg.ok = true ∧ (notReset t = true → s.halted = false) ∧ TurnEffect s t s' := by
  cases t with
  | reset l =>
    cases hc : s.cfg.ok <;> simp [runTurn, resetTurn, hc] at h
    exact ⟨rfl, by simp [notReset], h ▸ .reset l⟩
  | event e =>
    obtain ⟨hr, hk⟩ := guarded_next_iff.mp h
    cases hk
    exact ⟨hr.1, fun _ => hr.2, .event e⟩
  | host =>
    simp only [runTurn, hostTurn, presentedWord] at h
    cases hp : s.program with
    | nil =>
      simp only [hp, List.head?_nil] at h
      obtain ⟨hr, hk⟩ := guarded_next_iff.mp h
      cases hk
      exact ⟨hr.1, fun _ => hr.2, .idle hp⟩
    | cons w ws =>
      simp only [hp, List.head?_cons] at h
      cases hd : decode w with
      | error e =>
        simp only [hd, illegalCommand] at h
        obtain ⟨hr, rfl⟩ := command_next_iff.mp h
        exact ⟨hr.1, fun _ => hr.2, .illegal w ws hp (by simp [hd])⟩
      | ok i =>
        simp only [hd] at h
        obtain ⟨hr, ⟨hb, rfl⟩ | ⟨hb, rfl⟩⟩ := exec_next_iff.mp h
        · cases i <;> simp only [isHeld, Bool.false_eq_true] at hb
          exact ⟨hr.1, fun _ => hr.2, .held w ws _ hp hd hb⟩
        · exact ⟨hr.1, fun _ => hr.2, .command w ws i hp hd hb⟩

/-- A ready block's turn that is no reset answers a next state. -/
theorem runTurn_ready {t : Turn} {s : State} (h : Ready s) (ht : notReset t = true) : ∃ s', runTurn t s = .next s' := by
  cases t with
  | reset l => simp [notReset] at ht
  | event e => exact ⟨_, guarded_ready h _⟩
  | host =>
    simp only [runTurn, hostTurn]
    split
    · exact ⟨_, guarded_ready h _⟩
    · split
      · rename_i i _
        rw [exec_eq]
        split
        · exact ⟨_, guarded_ready h _⟩
        · exact ⟨_, command_ready h _ _⟩
      · exact ⟨_, command_ready h _ _⟩

/-- A step is the next turn's effect on the state from which the turn is taken. -/
theorem step_next {s s' : State} (h : step s = .next s') :
    s.cfg.ok = true ∧ (notReset (nextTurn s) = true → s.halted = false) ∧
      TurnEffect (takeTurn s) (nextTurn s) s' := by
  simpa using runTurn_next h

theorem runTurns_cons (t : Turn) (ts : List Turn) (s s' : State) (h : runTurn t s = .next s') :
    runTurns (t :: ts) s = runTurns ts s' := by
  simp [runTurns, h]

/-- No turn writes the parameters, and none but a reset writes HALTED. -/
theorem TurnEffect.frame {s s' : State} {t : Turn} (h : TurnEffect s t s') :
    s'.cfg = s.cfg ∧ (notReset t = true → s'.halted = s.halted) := by
  cases h <;> simp [notReset, relaunch, State.launch]

end Sys2Proof.Machine
end

