-- ==== Sys2Proof/Laws/Console.lean ====
section
/-! SUPPORT. What a turn of a composition can do: the block's step inside it, the gate of a refused host, and the phases. -/

namespace Sys2Proof.Machine

/-- A composition's next state is built from the block's. -/
theorem within_next_iff {o : Host.Outcome State Fault Refusal} {ref : Refusal → ρ} {k : State → α} {d : α} :
    within o ref k = .next d ↔ ∃ s, o = .next s ∧ d = k s := by
  cases o <;> simp [within, eq_comm]

/-- A console has a next state only where its host is not refused. -/
theorem consoleGuarded_next_iff {c d : Console} {k : Host.Outcome Console Fault ConsoleRefusal} :
    consoleGuarded c k = .next d ↔ hostRefusal c.host = none ∧ k = .next d := by
  unfold consoleGuarded
  cases hostRefusal c.host <;> simp

theorem consoleGuarded_refused {c : Console} {r : HostRefusal} (h : hostRefusal c.host = some r)
    (k : Host.Outcome Console Fault ConsoleRefusal) : consoleGuarded c k = .refused (.host r) := by
  simp [consoleGuarded, h]

/-- An empty delay interval is the first reason to refuse a host. -/
theorem hostRefusal_of_delay {h : HostConfig} (hd : delayConfigOk h = false) :
    hostRefusal h = some .emptyDelayInterval := by
  simp [hostRefusal, hd]

/-- The block under a presented word takes HOST's turn with that word alone in its program. -/
theorem present_next {w : Word} {s s' : State} (h : present w s = .next s') :
    TurnEffect { s with program := [w] } .host s' := by
  simpa [nextTurn, takeTurn] using (step_next h).2.2

/-- A presented command takes its step, with its effect and response, or is held. -/
theorem present_encode_next {i : Instr} {s s' : State} (h : present (encode i) s = .next s') :
    (isHeld i s = true ∧ s' = hold { s with program := [encode i] } ∧ accepted s' = false) ∨
      (isHeld i s = false ∧ accepted s' = true ∧
        s' = respond (commandResponse i { s with program := [encode i] })
          (commandEffect i { s with program := [encode i] })) := by
  cases present_next h with
  | idle hp => simp at hp
  | illegal w ws hp hd => exact absurd (decode_encode i) (by cases hp; exact hd i)
  | held w ws b hp hd hb =>
    cases hp
    obtain rfl : Instr.send b = i := by simpa [decode_encode, eq_comm] using hd
    exact .inl ⟨hb, rfl, rfl⟩
  | command w ws j hp hd hb =>
    cases hp
    obtain rfl : j = i := by simpa [decode_encode, eq_comm] using hd
    refine .inr ⟨?_, ?_, rfl⟩
    · cases j <;> first | rfl | exact hb
    · simp [accepted]

/-- The block under another agent's event has that event's effect. -/
theorem happen_next {e : Event} {s s' : State} (h : happen e s = .next s') : s' = runEvent e s := by
  have ht := (step_next h).2.2
  simp only [nextTurn, takeTurn] at ht
  cases ht
  rfl

/-- Entering a phase keeps the host's parameters and starts an echo where they place one. -/
@[simp] theorem consoleEnter_fields (c : Console) (s : State) (p : HostPhase) :
    (consoleEnter c s p).host = c.host ∧ (consoleEnter c s p).block = s ∧ (consoleEnter c s p).phase = p ∧
      (consoleEnter c s p).echo = echoOnEntry c.host p := ⟨rfl, rfl, rfl, rfl⟩

end Sys2Proof.Machine
end

