-- ==== Sys2Proof/Laws/Decode.lean ====
section
/-! SUPPORT. The fields of a command word as numbers (30_encoding.md R100). -/

namespace Sys2Proof

/-- GRP is the word's fourth hexadecimal digit. -/
theorem grp_eq (w : Word) : grp w = w.toNat / 4096 := by
  have := w.isLt
  simp only [grp, BitVec.extractLsb'_toNat, Nat.shiftRight_eq_div_pow]
  omega

/-- FN is the word's third hexadecimal digit. -/
theorem fn_eq (w : Word) : fn w = w.toNat / 256 % 16 := by
  simp only [fn, BitVec.extractLsb'_toNat, Nat.shiftRight_eq_div_pow]

/-- IMM8 is the word's low byte. -/
theorem imm8_toNat (w : Word) : (imm8 w).toNat = w.toNat % 256 := by
  simp only [imm8, BitVec.extractLsb'_toNat, Nat.shiftRight_zero]

/-- IMM8 is zero exactly when the low byte is. -/
theorem imm8_eq_zero_iff (w : Word) : imm8 w = 0 ↔ w.toNat % 256 = 0 := by
  rw [← imm8_toNat]
  exact ⟨fun h => by rw [h]; rfl, fun h => BitVec.eq_of_toNat_eq h⟩

/-- A word is its three fields. -/
theorem word_eq_fields (w : Word) : w.toNat = 4096 * grp w + 256 * fn w + (imm8 w).toNat := by
  rw [grp_eq, fn_eq, imm8_toNat]
  omega

/-- A command without an operand is decoded only with IMM8 = 0. -/
theorem noImm_ok_iff (w : Word) (i j : Instr) : noImm w i = .ok j ↔ imm8 w = 0 ∧ i = j := by
  unfold noImm
  split
  · simp [*]
  · rename_i h
    exact ⟨fun hq => by simp at hq, fun hq => absurd hq.1 h⟩

end Sys2Proof
end

