-- ==== Sys2Proof/Laws/Timing.lean ====
section
/-! SUPPORT. Arithmetic of the wrapping counters and of the frame bits: how far a compare target lies ahead, and the size of a
shift register as its bits go out. -/

namespace Sys2Proof.Machine

/-- The distance to a target, as one subtraction. -/
theorem ahead_eq {w cnt tgt : Nat} (hc : cnt < w) (ht : tgt < w) :
    (tgt + w - cnt) % w = if cnt ≤ tgt then tgt - cnt else tgt + w - cnt := by
  split
  · rw [show tgt + w - cnt = (tgt - cnt) + w by omega, Nat.add_mod_right, Nat.mod_eq_of_lt (by omega)]
  · exact Nat.mod_eq_of_lt (by omega)

/-- A wrapping sum of two values within the width. -/
theorem wrap_eq {w a b : Nat} (ha : a < w) (hb : b < w) :
    (a + b) % w = if a + b < w then a + b else a + b - w := by
  split
  · exact Nat.mod_eq_of_lt ‹_›
  · rw [Nat.mod_eq_sub_mod (by omega), Nat.mod_eq_of_lt (by omega)]

/-- A count that does not reach the target brings it one nearer. -/
theorem ahead_count {w cnt tgt : Nat} (hw : 1 < w) (hc : cnt < w) (ht : tgt < w) (hne : (cnt + 1) % w ≠ tgt)
    (h1 : 1 ≤ (tgt + w - cnt) % w) : (tgt + w - (cnt + 1) % w) % w = (tgt + w - cnt) % w - 1 := by
  have h2 : (cnt + 1) % w < w := Nat.mod_lt _ (by omega)
  rw [ahead_eq hc ht] at h1
  rw [ahead_eq h2 ht, ahead_eq hc ht]
  rw [wrap_eq hc hw] at *
  split_ifs at * <;> omega

/-- A target set `d` past the counter is `d` ahead. -/
theorem ahead_set {w cnt d : Nat} (hc : cnt < w) (hd : d < w) : ((cnt + d) % w + w - cnt) % w = d := by
  rw [ahead_eq hc (Nat.mod_lt _ (by omega)), wrap_eq hc hd]
  split_ifs <;> omega

/-- A nonzero bit counter goes down by one. -/
theorem bitcnt_pred (n : BitVec 4) (h : 1 ≤ n.toNat) : (n - 1).toNat = n.toNat - 1 := by
  have := n.isLt
  bv_omega

/-- A bit counter is on its last bit exactly at 1. -/
theorem bitcnt_last (n : BitVec 4) : n - 1 = 0 ↔ n = 1 := by revert n; decide

/-- The stop bit is a frame's highest bit (R115). -/
theorem frame_bounds (b : Byte) : 2 ^ 9 ≤ (frame b).toNat ∧ (frame b).toNat < 2 ^ 10 := by revert b; decide

/-- The shift of the transmit register as a number. -/
theorem txsr_shift (x : BitVec 10) : (x >>> 1).toNat = x.toNat / 2 := by simp [Nat.shiftRight_eq_div_pow]

/-- A counter has room for 16 bits (R8). -/
theorem tmrW_room {c : Config} (h : c.ok = true) : 2 ^ 16 ≤ 2 ^ c.tmrW :=
  Nat.pow_le_pow_right (by omega) (config_ok_iff c |>.mp h).1

/-- A response has room for 16 bits, and for a counter (R7, R105). -/
theorem respW_room (c : Config) : 2 ^ 16 ≤ 2 ^ c.respW ∧ 2 ^ c.tmrW ≤ 2 ^ c.respW :=
  ⟨Nat.pow_le_pow_right (by omega) (by simp [Config.respW]), Nat.pow_le_pow_right (by omega) (by simp [Config.respW])⟩

/-- The arbiter's winner has its flag set (R184). -/
theorem winner_flag {s : State} {b : Button} (h : winner s = some b) : flagSet b s = true := by
  simpa using List.find?_some h

end Sys2Proof.Machine
end

