-- ==== Sys2Proof/Tests/Slice0.lean ====
section
/-! SUPPORT. The model's own tests. Expected values are those of 95_test_vectors.md, or read off the tables and rules that a
test names. The last part has a witness for the hypotheses of each obligation that has any. -/

namespace Sys2Proof.Tests

open Sys2Proof.Machine

/-! ### Helpers -/

/-- The next state of an outcome, if it is one. -/
def nextOf : Host.Outcome State Fault Refusal → Option State
  | .next s => some s
  | .fault _ => none
  | .refused _ => none

/-- What a command leaves, through a projection. -/
def after (i : Instr) (s : State) (f : State → α) : Option α := (nextOf (exec i s)).map f

/-- What a list of turns leaves, through a projection. -/
def afterTurns (ts : List Turn) (s : State) (f : State → α) : Option α := (nextOf (runTurns ts s)).map f

/-- Reset with TIMER_TOPOLOGY = SHARED. -/
def sharedReset : State := State.launch { Config.reference with topology := .shared } Launch.reference

/-- Reset of a block with short bit periods, for runs of a whole frame. -/
def shortReset : State := State.launch { Config.reference with bitp := 3, halfp := 1 } Launch.reference

/-- ARMED with SEM = 0. -/
def armed : State := { State.reset with lstate := .armed }

/-- A state from which the next turn is the one given. -/
def withTurn (t : Turn) (s : State) : State := { s with turns := [t] }

/-- HOST's turn is next, and it presents this word. -/
def presenting (w : Word) (s : State) : State := { s with turns := [.host], program := [w] }

/-! ### Well-formedness: each check of 00_scope.md R8 refuses its ill-formed configuration -/

theorem test_reference_ok : Config.reference.ok = true := by decide
theorem test_tmrW_refused : Config.ok { Config.reference with tmrW := 15 } = false := by decide
theorem test_bitp_refused : Config.bitpOk { Config.reference with bitp := 1 } = false := by decide
theorem test_halfp_zero_refused : Config.ok { Config.reference with halfp := 0 } = false := by decide
theorem test_halfp_bitp_refused : Config.ok { Config.reference with halfp := 104 } = false := by decide
theorem test_rxSpan_refused : Config.rxSpanOk { Config.reference with bitp := 40000, halfp := 25536 } = false := by decide
theorem test_txSpan_refused : Config.ok { Config.reference with bitp := 5958 } = false := by decide
theorem test_txFrameBits_refused : Config.ok { Config.reference with txFrameBits := 9 } = false := by decide
theorem test_rxDataBits_refused : Config.ok { Config.reference with rxDataBits := 7 } = false := by decide

/-- R7: floor(1000000 / 9600) and floor(1000000 / 19200). -/
theorem test_reference_periods : (Config.reference.bitp, Config.reference.halfp) = (104, 52) := by decide
theorem test_txSpan_boundary : Config.ok { Config.reference with bitp := 5957 } = true := by decide
theorem test_every_instr_wellFormed (i : Instr) : i.wellFormed = true := by cases i <;> rfl

/-! ### Decoding: the words of 30_encoding.md R102 bit by bit (GRP FN IMM8) -/

theorem test_decode_nop : decode 0b0000000000000000 = .ok .nop := by decide
theorem test_decode_fltrd : decode 0b0000000100000000 = .ok .fltrd := by decide
theorem test_decode_tstart : decode 0b0001000000000000 = .ok .tstart := by decide
theorem test_decode_tstop : decode 0b0001000100000000 = .ok .tstop := by decide
theorem test_decode_tnow : decode 0b0001001000000000 = .ok .tnow := by decide
theorem test_decode_tread : decode 0b0001001100000000 = .ok .tread := by decide
theorem test_decode_send : decode 0b0010000001000001 = .ok (.send 0x41) := by decide
theorem test_decode_send_ff : decode 0b0010000011111111 = .ok (.send 0xFF) := by decide
theorem test_decode_recv : decode 0b0010000100000000 = .ok .recv := by decide
theorem test_decode_ustat : decode 0b0010001000000000 = .ok .ustat := by decide
theorem test_decode_lpoll : decode 0b0011000000000000 = .ok .lpoll := by decide
theorem test_decode_lelap : decode 0b0011000100000000 = .ok .lelap := by decide
theorem test_decode_lack : decode 0b0011001000000000 = .ok .lack := by decide
theorem test_decode_lzero : decode 0b0011001100000000 = .ok .lzero := by decide
theorem test_decode_lclrf : decode 0b0011010000000000 = .ok .lclrf := by decide
theorem test_decode_iclr : decode 0b0011010100000000 = .ok .iclr := by decide

/-- The illegal words of V11. -/
theorem test_illegal_words :
    [0x0001, 0x0200, 0x1001, 0x1400, 0x2101, 0x2300, 0x3001, 0x3600, 0x4000, 0xFFFF].map (decodeTableWord 16) =
      List.replicate 10 none := by decide

/-- No word falls under two rows of the opcode map (R102). -/
theorem test_rows_disjoint :
    opcodeMap.Pairwise (fun p q => p.1 &&& q.1 &&& p.2.1 ≠ p.1 &&& q.1 &&& q.2.1) := by decide

/-- R82: the low byte of 0x2041 comes first. -/
theorem test_link_order : decodeBytes [0x41, 0x20, 0x00] = .ok (.send 0x41, [0x00]) := by decide
theorem test_link_incomplete : decodeBytes [0x41] = .error .incomplete := by decide

/-- A word placed by withFetchWord is the next command (V10: USTAT at reset). -/
theorem test_withFetchWord : (nextOf (step (State.reset.withFetchWord 16 0x2200))).map (·.resp) = some (some 0x8A18) := by
  decide

/-! ### Commands -/

/-- V10. -/
theorem test_nop : after .nop State.reset (fun t => t) = some { State.reset with resp := some 0 } := by decide
theorem test_fltrd_clear : after .fltrd State.reset (·.resp) = some (some 0) := by decide

/-- V11: a FLTRD after an illegal word, and the flag stays (V12). -/
theorem test_fltrd_after_illegal :
    afterTurns [.host, .host, .host] { State.reset with program := [0x2101, 0x0100, 0x0100] }
      (fun t => (t.faultIll, t.resp)) = some (true, some 1) := by decide

/-- V14, V15. -/
theorem test_tstart_split :
    after .tstart { State.reset with cnt := 1000, swcnt := 5, swRun := false } (fun t => (t.cnt, t.swcnt, t.swRun)) =
      some (1000, 0, true) := by decide

/-- V17. -/
theorem test_tstart_shared :
    after .tstart { sharedReset with cnt := 500, cntRun := false } (fun t => (t.cnt, t.cntRun)) = some (0, true) := by
  decide
theorem test_tstop_split : after .tstop State.reset (fun t => (t.cntRun, t.swRun)) = some (true, false) := by decide
theorem test_tstop_shared : after .tstop sharedReset (fun t => (t.cntRun, t.cnt)) = some (false, 0) := by decide

/-- V15, V14: TNOW reads CNT, TREAD reads SWCNT when SPLIT and CNT when SHARED. -/
theorem test_tnow : after .tnow { State.reset with cnt := 1000, swcnt := 5 } (·.resp) = some (some 1000) := by decide
theorem test_tread_split : after .tread { State.reset with cnt := 1000, swcnt := 5 } (·.resp) = some (some 5) := by decide
theorem test_tread_shared : after .tread { sharedReset with cnt := 500, swcnt := 5 } (·.resp) = some (some 500) := by
  decide

/-- V20, then V21's target across the wrap. -/
theorem test_send :
    after (.send 0x41) State.reset (fun t => (t.txccr, t.txsr, t.txIe, t.txbitcnt, (ustatWord t).toNat)) =
      some (104, 0x282, true, 10, 0x8A19) := by decide
theorem test_send_wrap :
    after (.send 0xA5) { State.reset with cnt := 0xFFC0 } (fun t => (t.txccr, t.txsr)) = some (0x28, 0x34A) := by decide

/-- V22: the second SEND is held until the tick to CNT = 1040, and then starts at 1040. -/
theorem test_send_held_then_accepted :
    afterTurns [.host, .event .bclkTick, .host]
      { State.reset with cnt := 1039, txccr := 1040, txIe := true, txbitcnt := 1, txsr := 1, program := [0x2042] }
      (fun t => (t.program, t.txccr, t.txsr, t.txIe)) = some ([], 1144, 0x284, true) := by decide

/-- V34: RECV returns the byte, and RXAVAIL is cleared. -/
theorem test_recv :
    after .recv { State.reset with rxbuf := 0x32, rxavail := true } (fun t => (t.resp, t.rxavail, t.rxbuf)) =
      some (some 0x32, false, 0x32) := by decide

/-- V31: USTAT after the publication of 0x5A with the line still low. -/
theorem test_ustat :
    after .ustat { State.reset with rxavail := true, rxd := false } (·.resp) = some (some 0x8A0A) := by decide

/-- V10, and V42's LPOLL after the win of BLUE. -/
theorem test_lpoll_reset : after .lpoll State.reset (·.resp) = some (some 0x4010) := by decide
theorem test_lpoll_blue :
    after .lpoll { State.reset with swRun := false, ind := 0b1000, buttonId := .blue, sem := true } (·.resp) =
      some (some 0x201B) := by decide

/-- V42. -/
theorem test_lelap : after .lelap { State.reset with elapsed := 4096 } (·.resp) = some (some 4096) := by decide

/-- V45. -/
theorem test_lack :
    after .lack { armed with sem := true, buttonId := .start, elapsed := 7 } (fun t => (t.sem, t.buttonId, t.elapsed)) =
      some (false, .start, 7) := by decide
theorem test_lzero :
    after .lzero { armed with sem := true, elapsed := 7, swcnt := 9 } (fun t => (t.sem, t.elapsed, t.swcnt)) =
      some (true, 0, 9) := by decide
theorem test_lclrf :
    after .lclrf { armed with ifg := 0b10100, ind := 0b0001 } (fun t => (t.ifg, t.ind, t.lstate)) =
      some (0, 0b0001, .armed) := by decide
theorem test_iclr :
    after .iclr { armed with ifg := 0b10100, ind := 0b0001 } (fun t => (t.ifg, t.ind, t.lstate)) =
      some (0b10100, 0, .armed) := by decide

/-! ### Events -/

/-- V16. -/
theorem test_cnt_wraps : (bclkTick { State.reset with cnt := 0xFFFF }).cnt = 0 := by decide
theorem test_swcnt_wraps : (swclkTick { State.reset with swcnt := 0xFFFF }).swcnt = 0 := by decide

/-- V20: the first action drives the start bit, and the tenth ends the frame. -/
theorem test_tx_first_action :
    let t := bclkTick { State.reset with cnt := 103, txccr := 104, txsr := 0x282, txIe := true }
    (t.txd, t.txccr, t.txsr, t.txbitcnt, t.txIe) = (false, 208, 0x141, 9, true) := by decide
theorem test_tx_last_action :
    let t := bclkTick { State.reset with cnt := 1039, txccr := 1040, txsr := 1, txIe := true, txbitcnt := 1, txd := false }
    (t.txd, t.txccr, t.txsr, t.txbitcnt, t.txIe) = (true, 1144, 0, 10, false) := by decide

/-- V31: the capture, the second sample and the publication; V32: a capture across the wrap. -/
theorem test_capture :
    let t := rxdSet false { State.reset with cnt := 1000 }
    (t.rxccr, t.rxMode, t.rxd) = (1156, .compare, false) := by decide
theorem test_capture_wraps : (rxdSet false { State.reset with cnt := 0xFFF0 }).rxccr = 0x8C := by decide
theorem test_rx_sample :
    let t := bclkTick { State.reset with cnt := 1259, rxccr := 1260, rxMode := .compare, rxbitcnt := 7 }
    (t.rxsr, t.rxbitcnt, t.rxccr, t.rxMode) = (0x80, 6, 1364, .compare) := by decide
theorem test_publish :
    let t := bclkTick
      { State.reset with cnt := 1883, rxccr := 1884, rxMode := .compare, rxbitcnt := 1, rxsr := 0xB4, rxd := false }
    (t.rxbuf, t.rxavail, t.rxMode, t.rxbitcnt, t.rxccr) = (0x5A, true, .capture, 8, 1988) := by decide

/-- V30 with a short bit period. -/
theorem test_driven_frame : (driveFrame 0x5A shortReset).rxbuf = 0x5A ∧ (driveFrame 0x80 shortReset).rxbuf = 0x80 := by
  decide

/-- V40: RED leaves no flag while LOCKED; START after 7 ticks is accepted. -/
theorem test_start_round :
    afterTurns [.event (.press .red), .event (.press .start), .event .arbitrate] { State.reset with swcnt := 7 }
      (fun t => (t.elapsed, t.swcnt, t.lstate, t.ifg, (lpollWord t).toNat)) = some (7, 0, .armed, 0, 0x4003) := by decide

/-- V41: discarded while SEM = 1. -/
theorem test_discard :
    afterTurns [.event (.press .red), .event .arbitrate] { armed with sem := true, buttonId := .start, elapsed := 7 }
      (fun t => (t.ifg, t.sem, t.buttonId, t.elapsed)) = some (0, true, .start, 7) := by decide

/-- V42: BLUE wins over GREEN. -/
theorem test_blue_over_green :
    afterTurns [.event (.press .green), .event (.press .blue), .event .arbitrate]
      { armed with swcnt := 4096, buttonId := .start }
      (fun t => (t.elapsed, (lpollWord t).toNat)) = some (4096, 0x201B) := by decide

/-- V44: Green and White in both orders. -/
theorem test_green_white :
    (arbitrate { armed with ifg := 0b01100 }).buttonId = .green ∧
    (arbitrate { armed with cfg := { Config.reference with gwOrder := .whiteFirst }, ifg := 0b01100 }).buttonId = .white := by
  decide

/-- V46: a press of a pressed pin is no step, so it sets no flag. -/
theorem test_press_pressed :
    afterTurns [.event (.press .start)] { State.reset with btnPin := 0b11110 } (·.ifg) = some 0 := by decide

/-- V13: a block without calibration stops. -/
theorem test_halt : runTurn .host (State.launch Config.reference { Launch.reference with calOk := false }) = .fault .halt := by
  rfl

/-! ### The host's side -/

/-- The reference host with a banner of two lines that have no byte but their ends, and an echo at one place. -/
def someHost : HostConfig := HostConfig.reference [[], []] true 1 [.delay]

/-- V1, V3, V50. -/
theorem test_report :
    reportBytes someHost .red 4096 = some [0x39, 0x39, 0x39, 0x5F, 0x6D, 0x73, 0x5F, 0x52, 0x2A] ∧
    goBytes = [0x47, 0x6F, 0x2E, 0x2E, 0x2E, 0x21, 0x5F, 0x0D] ∧
    reportBytes someHost .blue 0 = some [0x30, 0x5F, 0x6D, 0x73, 0x5F, 0x42, 0x2A] := by decide
theorem test_ms :
    [0, 1, 4, 5, 7, 2049, 4096, 4100, 8192, 65535].map (msOfTicks someHost) =
      [0, 0, 0, 1, 1, 499, 999, 1000, 1998, 15990] := by decide

/-- V8. -/
theorem test_delay_bounds :
    [499, 500, 501, 1999, 2000].map (delayAdmitted someHost) = [false, true, true, true, false] ∧
    [500, 501, 1999, 2000].map (delayAdmitted { someHost with delayIncl := false }) = [false, true, true, false] ∧
    hostRefusal { someHost with delayLo := 5, delayHi := 5 } = some .emptyDelayInterval ∧
    hostRefusal { someHost with delayLo := 5, delayHi := 6, delayIncl := false } = some .emptyDelayInterval := by decide

/-- R281, N10: every line ends in CR LF; one line, or a line feed inside a line, is refused. -/
theorem test_banner :
    bannerBytes someHost = [0x0D, 0x0A, 0x0D, 0x0A] ∧ hostRefusal someHost = none ∧
    hostRefusal { someHost with bannerLines := [[0x41]] } = some .notABanner ∧
    hostRefusal { someHost with bannerLines := [[0x0A], []] } = some .notABanner := by decide

/-- What a console's host turns leave, through a projection. -/
def afterHostTurns (n : Nat) (c : Console) (f : Console → α) : Option α :=
  match n with
  | 0 => some (f c)
  | n + 1 =>
    match consoleHostTurn (fun _ _ => 0) c with
    | .next d => afterHostTurns n d f
    | .fault _ => none
    | .refused _ => none

/-- R288 with the echo in the delay: a received byte comes back as SEND of the byte, and the wait then goes on. -/
theorem test_echo_in_delay :
    afterHostTurns 4
      { host := someHost, block := { State.reset with rxbuf := 0x5A, rxavail := true }, phase := .delay 7,
        echo := some .check }
      (fun d => (d.block.txsr, d.block.rxavail, d.phase, d.echo)) = some (0x2B4, false, .delay 6, some .check) := by decide

/-- R288 without an echo there: the byte stays in RXBUF through the wait, where the next frame can overwrite it. -/
theorem test_no_echo_in_delay :
    afterHostTurns 4
      { host := { someHost with echoAt := [.waitSem] },
        block := { State.reset with rxbuf := 0x5A, rxavail := true }, phase := .delay 7, echo := none }
      (fun d => (d.block.txIe, d.block.rxavail, d.phase)) = some (false, true, .delay 3) := by decide

/-- A script's state after some turns. -/
def afterScriptTurns : List ScriptTurn → ScriptRun → Option ScriptRun
  | [], c => some c
  | t :: ts, c =>
    match runScriptTurn t c with
    | .next d => afterScriptTurns ts d
    | .fault _ => none
    | .refused _ => none

/-- P1 with a bit period of 3 (R353): WAITTX repeats USTAT until the 30 ticks that the BCLK agent takes meanwhile are over, and
only then is the script at its end. -/
theorem test_script_end :
    let start : ScriptRun := { block := shortReset, rest := expandScript [.command (.send 0x41), .waitTx] }
    let ticks (n : Nat) : List ScriptTurn := List.replicate n (.event .bclkTick)
    (afterScriptTurns (.act :: .act :: ticks 29 ++ [.act]) start).map scriptEnded = some false ∧
      (afterScriptTurns (.act :: .act :: ticks 30 ++ [.act]) start).map (fun c => (scriptEnded c, c.block.resp)) =
        some (true, some 0x8A18) := by decide

/-- P1's and P4's lines. -/
theorem test_parse_send :
    parseLine ['S', 'E', 'N', 'D', ' ', '#', '\'', 'A', '\'', ' ', ';', 'x'] = some [.command (.send 0x41)] := by decide
theorem test_parse_word :
    parseLine ['.', 'w', 'o', 'r', 'd', ' ', '0', 'x', '2', '1', '0', '1'] = some [.word 0x2101] := by decide
theorem test_settle : expandLine .settle = [.issue 0x3300, .issue 0x3200, .issue 0x3400] := by decide

/-! ### Witnesses: states and operands that meet an obligation's hypotheses -/

/-- An illegal word has no instruction. -/
theorem illegal_has_no_instr {w : Word} {e : DecodeError} (h : decode w = .error e) : ∀ i, decode w ≠ .ok i := by simp [h]

theorem witness_IllegalWord :
    Ready (presenting 0x2101 State.reset) ∧ (presenting 0x2101 State.reset).turns = .host :: [] ∧
      (presenting 0x2101 State.reset).program = 0x2101 :: [] ∧ ∀ i, decode 0x2101 ≠ .ok i :=
  ⟨by decide, rfl, rfl, illegal_has_no_instr (e := .nonzeroImmediate) (by decide)⟩

/-- The boundary words of each clause of R103 are illegal: the first of a group, the first function, immediate 1 and 255. -/
theorem witness_IllegalWord_boundaries :
    [0x4000, 0x0001, 0x01FF, 0x0200, 0x1400, 0x1301, 0x2300, 0x21FF, 0x2201, 0x3600, 0x35FF].map (decodeTableWord 16) =
      List.replicate 11 none := by decide

theorem witness_StepRunsPresentedCommand :
    (presenting 0x1200 State.reset).turns = .host :: [] ∧ (presenting 0x1200 State.reset).program = 0x1200 :: [] ∧
      decode 0x1200 = .ok .tnow := by decide

theorem witness_StepRunsEvent_enabled :
    Ready (withTurn (.event (.press .blue)) State.reset) ∧
      eventEnabled (.press .blue) (withTurn (.event (.press .blue)) State.reset) = true := by decide
theorem witness_StepRunsEvent_disabled :
    Ready (withTurn (.event .arbitrate) State.reset) ∧
      eventEnabled .arbitrate (withTurn (.event .arbitrate) State.reset) = false := by decide

theorem witness_ConfigOutOfRange :
    (State.launch { Config.reference with halfp := 104 } Launch.reference).cfg.ok = false := by decide

/-- The hypothesis of the command statements, in either topology. -/
theorem witness_commands_ready :
    (Ready State.reset ∧ State.reset.cfg.topology = .split) ∧ (Ready sharedReset ∧ sharedReset.cfg.topology = .shared) := by
  decide
theorem witness_SendStartsFrameOrHolds :
    (Ready State.reset ∧ State.reset.txIe = false) ∧
      (Ready { State.reset with txIe := true } ∧ { State.reset with txIe := true }.txIe = true) := by decide

theorem witness_Halt :
    let s := State.launch Config.reference { Launch.reference with calOk := false }
    s.cfg.ok = true ∧ s.halted = true ∧ notReset .host = true := by decide

theorem witness_ResetValues : Config.reference.ok = true := by decide

theorem witness_ResetTurn :
    (withTurn (.reset Launch.reference) { State.reset with faultIll := true }).cfg.ok = true ∧
      (withTurn (.reset Launch.reference) { State.reset with faultIll := true }).turns = .reset Launch.reference :: [] := by
  decide

theorem witness_StatusWordsAtReset :
    Config.reference.ok = true ∧ Launch.reference.calOk = true ∧ Launch.reference.rxd = true := by decide

theorem witness_FaultIllIsSticky_kept :
    ∃ t, step (presenting 0x0100 { State.reset with faultIll := true }) = .next t ∧
      notReset (nextTurn (presenting 0x0100 { State.reset with faultIll := true })) = true :=
  ⟨_, rfl, by decide⟩
theorem witness_FaultIllIsSticky_set :
    ∃ t, step (presenting 0xFFFF State.reset) = .next t ∧ notReset (nextTurn (presenting 0xFFFF State.reset)) = true ∧
      (presenting 0xFFFF State.reset).faultIll = false ∧ t.faultIll = true := ⟨_, rfl, by decide⟩

theorem witness_ParametersAndHalted :
    ∃ t, step (withTurn (.event .bclkTick) State.reset) = .next t ∧
      notReset (nextTurn (withTurn (.event .bclkTick) State.reset)) = true := ⟨_, rfl, by decide⟩

theorem witness_BclkTick_stopped :
    let s := withTurn (.event .bclkTick) { sharedReset with cntRun := false }
    Ready s ∧ s.turns = .event .bclkTick :: [] ∧ s.cntRun = false := by decide

/-- A tick in which both channels match, on their last bits, at the wrap. -/
theorem witness_BclkTick_bothChannels :
    let s := withTurn (.event .bclkTick)
      { State.reset with cnt := 0xFFFF, txccr := 0, rxccr := 0, txIe := true, rxMode := .compare, txbitcnt := 1, rxbitcnt := 1 }
    Ready s ∧ s.turns = .event .bclkTick :: [] ∧ s.cntRun = true ∧ (s.cnt + 1) % 2 ^ s.cfg.tmrW = s.txccr ∧
      (s.cnt + 1) % 2 ^ s.cfg.tmrW = s.rxccr := by decide

theorem witness_Swclk :
    let s := withTurn (.event .swclkTick) State.reset
    (Ready s ∧ s.cfg.topology = .split ∧ s.swRun = true) ∧
      (Ready { s with swRun := false } ∧ { s with swRun := false }.swRun = false) ∧
      (Ready (withTurn (.event .swclkTick) sharedReset) ∧ (withTurn (.event .swclkTick) sharedReset).cfg.topology = .shared) := by
  decide

theorem witness_Rxd :
    let s := withTurn (.event (.rxdSet false)) State.reset
    (Ready s ∧ s.rxd = true ∧ false = false ∧ s.rxMode = .capture) ∧
      (Ready { s with rxMode := .compare } ∧ ¬({ s with rxMode := .compare }.rxMode = .capture)) := by decide

theorem witness_Press :
    let s := withTurn (.event (.press .white)) armed
    Ready s ∧ s.turns = .event (.press .white) :: [] ∧ pinHigh .white s = true := by decide
theorem witness_Press_locked :
    let s := withTurn (.event (.press .red)) State.reset
    Ready s ∧ pinHigh .red s = true ∧ ¬(Button.red = .start ∨ s.lstate = .armed) := by decide

theorem witness_Release :
    let s := withTurn (.event (.release .start)) { State.reset with btnPin := 0b11110 }
    Ready s ∧ s.turns = .event (.release .start) :: [] ∧ pinHigh .start s = false := by decide

theorem witness_ArbiterDiscards :
    let s := withTurn (.event .arbitrate) { State.reset with ifg := 0b00001, sem := true }
    Ready s ∧ s.turns = .event .arbitrate :: [] ∧ s.ifg ≠ 0 ∧ s.sem = true := by decide

theorem witness_StartAcceptance :
    let s := withTurn (.event .arbitrate) { State.reset with ifg := 0b11111 }
    let u := withTurn (.event .arbitrate) { sharedReset with ifg := 0b00001 }
    (Ready s ∧ s.turns = .event .arbitrate :: [] ∧ flagSet .start s = true ∧ s.sem = false ∧ s.cfg.topology = .split) ∧
      (Ready u ∧ u.turns = .event .arbitrate :: [] ∧ flagSet .start u = true ∧ u.sem = false ∧ u.cfg.topology = .shared) := by
  decide

theorem witness_ColourAcceptance :
    let s := withTurn (.event .arbitrate) { armed with ifg := 0b01100 }
    Ready s ∧ s.turns = .event .arbitrate :: [] ∧ s.sem = false ∧ Button.green ≠ .start ∧ flagSet .green s = true ∧
      s.cfg.topology = .split ∧ ∀ c, flagSet c s = true → priorityRank s.cfg .green ≤ priorityRank s.cfg c :=
  ⟨by decide, by decide, by decide, by decide, by decide, by decide, fun c => by cases c <;> decide⟩
theorem witness_ColourAcceptance_shared :
    let s := withTurn (.event .arbitrate) { sharedReset with lstate := .armed, ifg := 0b10000 }
    Ready s ∧ s.turns = .event .arbitrate :: [] ∧ s.sem = false ∧ flagSet .blue s = true ∧ s.cfg.topology = .shared ∧
      ∀ c, flagSet c s = true → priorityRank s.cfg .blue ≤ priorityRank s.cfg c :=
  ⟨by decide, by decide, by decide, by decide, by decide, fun c => by cases c <;> decide⟩

theorem witness_InvariantHoldsAtReset : Config.reference.ok = true ∧ Inv State.reset := by decide

/-- A frame in flight one tick before its next action. -/
theorem witness_StepKeepsInvariant :
    let s := withTurn (.event .bclkTick)
      { State.reset with cnt := 103, txccr := 104, txsr := 0x282, txIe := true, rxMode := .compare, rxccr := 104 }
    Inv s ∧ ∃ t, step s = .next t := ⟨by decide, _, rfl⟩

theorem witness_PendingMailbox_ack :
    let s := presenting 0x3200 { State.reset with sem := true, buttonId := .red, elapsed := 7 }
    s.sem = true ∧ notReset (nextTurn s) = true ∧ ∃ t, step s = .next t ∧ t.sem = false := ⟨rfl, rfl, _, rfl, rfl⟩
theorem witness_PendingMailbox_zero :
    let s := presenting 0x3300 { State.reset with sem := true, buttonId := .red, elapsed := 7 }
    s.sem = true ∧ notReset (nextTurn s) = true ∧ ∃ t, step s = .next t ∧ t.elapsed ≠ s.elapsed :=
  ⟨rfl, rfl, _, rfl, by decide⟩

theorem witness_MailboxIsPublished :
    let s := withTurn (.event .arbitrate) { armed with ifg := 0b00010, swcnt := 9 }
    s.sem = false ∧ ∃ t, step s = .next t ∧ t.sem = true := ⟨rfl, _, rfl, rfl⟩

theorem witness_OnlyStartAcceptanceArms :
    let s := withTurn (.event .arbitrate) { State.reset with ifg := 0b00001 }
    s.lstate = .locked ∧ ∃ t, step s = .next t ∧ t.lstate = .armed := ⟨rfl, _, rfl, rfl⟩

theorem witness_ButtonId :
    let s := presenting 0x3200 { State.reset with sem := true, buttonId := .blue }
    s.buttonId ≠ .none ∧ notReset (nextTurn s) = true ∧ ∃ t, step s = .next t := ⟨by decide, rfl, _, rfl⟩

theorem witness_OnlyTxCompareActionDrivesTxd :
    let s := withTurn (.event .bclkTick) { State.reset with cnt := 103, txccr := 104, txsr := 0x282, txIe := true }
    notReset (nextTurn s) = true ∧ ∃ t, step s = .next t ∧ t.txd ≠ s.txd := ⟨rfl, _, rfl, by decide⟩

theorem witness_SplitKeepsTransmitter :
    let s := withTurn (.event (.press .start)) State.reset
    let u := presenting 0x2041 State.reset
    (s.cfg.topology = .split ∧ notReset (nextTurn s) = true ∧ nextTurn s ≠ .event .bclkTick ∧ ∃ t, step s = .next t) ∧
      (u.cfg.topology = .split ∧ notReset (nextTurn u) = true ∧ nextTurn u ≠ .event .bclkTick ∧
        ∃ t, step u = .next t ∧ txView t ≠ txView u) :=
  ⟨⟨rfl, rfl, by decide, _, rfl⟩,
    ⟨rfl, rfl, by decide, _, rfl, fun h => absurd (congrArg (fun v => v.2.2.2.2.2.2.1) h) (by decide)⟩⟩

theorem witness_SplitUartIgnores :
    let s := { State.reset with swcnt := 5, ifg := 0b00001, elapsed := 9 }
    s ≠ State.reset ∧ Ready s ∧ Ready State.reset ∧ s.cfg.topology = .split ∧ txView s = txView State.reset ∧ rxView s = rxView State.reset :=
  ⟨by decide, by decide, by decide, rfl, rfl, rfl⟩

theorem witness_ReadsAreIdempotent :
    Instr.lpoll ∈ [Instr.tnow, .tread, .ustat, .lpoll, .lelap, .fltrd] ∧
      ∃ t u, exec .lpoll State.reset = .next t ∧ exec .lpoll t = .next u := ⟨by decide, _, _, rfl, rfl⟩

theorem witness_OnlyBclkTickLiftsSendHold :
    let s := withTurn (.event .bclkTick)
      { State.reset with cnt := 1039, txccr := 1040, txIe := true, txbitcnt := 1, txsr := 1, program := [0x2042] }
    s.txIe = true ∧ s.program = encode (.send 0x42) :: [] ∧ notReset (nextTurn s) = true ∧
      ∃ t, step s = .next t ∧ t.txIe = false := ⟨rfl, by decide, rfl, _, rfl, rfl⟩

/-- The last clause's tick number: one tick before the frame ends, with other steps between. -/
theorem witness_TxTimeline :
    let ts : List Turn := .event (.press .start) :: .host :: List.replicate 29 (.event .bclkTick)
    Inv shortReset ∧ shortReset.cfg.topology = .split ∧ shortReset.txIe = false ∧ ts.all notReset = true ∧
      ts.count (.event .bclkTick) + 1 = 10 * shortReset.cfg.bitp ∧ ∃ s0, exec (.send 0x41) shortReset = .next s0 :=
  ⟨by decide, by decide, by decide, by decide, by decide, _, rfl⟩

theorem witness_DrivenFrame :
    State.reset.cfg.ok = true ∧ State.reset.cntRun = true ∧ State.reset.rxMode = .capture ∧ State.reset.rxbitcnt = 8 ∧
      State.reset.rxd = true := by decide

theorem witness_Loopback :
    Inv shortReset ∧ shortReset.cntRun = true ∧ shortReset.txIe = false ∧ shortReset.rxMode = .capture ∧
      shortReset.rxd = true ∧ ∃ t, exec (.send 0x41) shortReset = .next t :=
  ⟨by decide, by decide, by decide, by decide, by decide, _, rfl⟩

/-- A fair run: nothing but ticks, from a frame just started. -/
theorem witness_FrameEndsInEveryFairRun :
    ∃ (turn : Nat → Turn) (r : Nat → State), IsRun turn r ∧ Inv (r 0) ∧ (r 0).cfg.topology = .split ∧
      (∀ n, notReset (turn n) = true) ∧ BclkFair turn r ∧ (r 0).txIe = true := by
  refine ⟨fun _ => .event .bclkTick, fun n => ticks n (loadFrame 0x41 shortReset), fun n => ?_, by decide, by decide,
    fun _ => rfl, fun n _ => ⟨n, le_refl n, rfl⟩, by decide⟩
  show eventTurn .bclkTick (ticks n (loadFrame 0x41 shortReset)) = .next (ticks (n + 1) (loadFrame 0x41 shortReset))
  rw [ticks_succ]
  have h : Ready (ticks n (loadFrame 0x41 shortReset)) := by
    have hf := ticks_frame n (loadFrame 0x41 shortReset)
    exact ⟨by rw [hf.1]; decide, by rw [hf.2.2.2.1]; decide⟩
  exact guarded_ready h _

theorem witness_SharedStopHangs :
    let s := { sharedReset with cntRun := false, txIe := true, sem := true, program := [0x2039] }
    Ready s ∧ s.cfg.topology = .shared ∧ s.cntRun = false ∧ s.txIe = true ∧ s.sem = true ∧
      s.program = encode (.send 0x39) :: [] ∧
      [Turn.host, .event .bclkTick, .event (.press .start), .event .arbitrate].all notReset = true := by decide

theorem witness_SharedStart_tstart :
    let s := { sharedReset with cnt := 500, cntRun := false, txIe := true, txccr := 604, txsr := 0x282 }
    Ready s ∧ s.cfg.topology = .shared ∧ s.txccr < 2 ^ s.cfg.tmrW ∧ s.rxccr < 2 ^ s.cfg.tmrW ∧ s.txIe = true ∧
      ∃ t, exec .tstart s = .next t := ⟨by decide, by decide, by decide, by decide, by decide, _, rfl⟩

/-- The receiver at a target of 0, and a Start acceptance. -/
theorem witness_SharedStart_accept :
    let s := withTurn (.event .arbitrate) { sharedReset with cnt := 500, ifg := 0b00001, rxMode := .compare, rxccr := 0 }
    Ready s ∧ s.cfg.topology = .shared ∧ s.rxMode = .compare ∧ s.rxccr = 0 ∧ s.turns = .event .arbitrate :: [] ∧
      flagSet .start s = true ∧ s.sem = false ∧ ∃ t, step s = .next t :=
  ⟨by decide, by decide, by decide, by decide, by decide, by decide, by decide, _, rfl⟩

/-- The LACK turn that leaves the phases behind the semaphore, an echo's turn, and an event there. -/
theorem witness_HostReadsOnlyBehindSemaphore :
    let c : Console :=
      { host := someHost, block := { State.reset with sem := true, buttonId := .red }, phase := .settleAck, echo := none }
    ConsoleInv c ∧ behindSemaphore c.phase = true ∧
      (∃ d, consoleHostTurn (fun _ _ => 0) c = .next d ∧ behindSemaphore d.phase = false) ∧
      (∃ d, consoleHostTurn (fun _ _ => 0) { c with phase := .delay 1, echo := some .check } = .next d) ∧
      ∃ d, consoleEventTurn (.press .start) c = .next d := ⟨by decide, rfl, ⟨_, rfl, rfl⟩, ⟨_, rfl⟩, _, rfl⟩

/-- The LPOLL that finds SEM = 1, and the two kinds of reading phase. -/
theorem witness_HostReads_enters :
    let c : Console :=
      { host := someHost, block := { State.reset with sem := true, buttonId := .red }, phase := .waitSem, echo := none }
    behindSemaphore c.phase = false ∧ hostCommand .readSeed = some .lelap ∧ hostCommand .dispatch = some .lpoll ∧
      ∃ d, consoleHostTurn (fun _ _ => 0) c = .next d ∧ behindSemaphore d.phase = true :=
  ⟨rfl, rfl, rfl, _, rfl, rfl⟩

theorem witness_Milliseconds : 0 < someHost.msDen ∧ someHost.msNum = 244 ∧ someHost.msDen = 1000 := by decide

/-- R287's two conditions at their boundaries. -/
theorem witness_DelayDraw :
    let h := { someHost with delayLo := 5, delayHi := 5 }
    let g := { someHost with delayLo := 5, delayHi := 6, delayIncl := false }
    (h.delayIncl = true ∧ h.delayHi ≤ h.delayLo) ∧ (g.delayIncl = false ∧ g.delayHi ≤ g.delayLo + 1) ∧
      ({ host := h, block := State.reset, phase := .waitSem, echo := none } : Console).host = h := by decide

end Sys2Proof.Tests
end

/-! The byte-serial link and the mailbox (20_memory.md R82, R88). -/

namespace Sys2Proof

/-- A word is its high byte above its low byte, the two bytes of the link (R82). -/
theorem highByte_append_lowByte (w : Word) : w.extractLsb' 8 8 ++ w.extractLsb' 0 8 = w := by
  rw [BitVec.extractLsb'_append_extractLsb'_eq_extractLsb' (by omega)]
  exact BitVec.extractLsb'_eq_self

/-- The link's bytes as numbers: the word's low byte, then its high byte. -/
theorem linkBytes_toNat (w : Word) : (linkBytes w).map BitVec.toNat = [w.toNat % 256, w.toNat / 256] := by
  have hw := w.isLt
  have hhi : w.toNat / 256 % 256 = w.toNat / 256 := by omega
  simp [linkBytes, BitVec.extractLsb'_toNat, Nat.shiftRight_eq_div_pow, hhi]

/-- The link's reader decodes the word that was sent and leaves the bytes after it. -/
theorem decodeBytes_linkBytes {w : Word} {i : Instr} (h : decode w = .ok i) (rest : List Byte) :
    decodeBytes (linkBytes w ++ rest) = .ok (i, rest) := by
  simp only [linkBytes, List.cons_append, List.nil_append, decodeBytes, highByte_append_lowByte, h]

end Sys2Proof

namespace Sys2Proof.Machine

/-- Settles O5: the bytes as numbers, and the word decoded from them is the one encoded. -/
theorem byteLinkCarriesLowByteFirst : Obligations.ByteLinkCarriesLowByteFirst :=
  ⟨linkBytes_toNat, fun i => decodeBytes_linkBytes (decode_encode i)⟩

/-- What Start acceptance writes of the latch (R186). -/
@[simp] theorem acceptStart_latch (s : State) :
    (acceptStart s).elapsed = swValue s ∧ (acceptStart s).lstate = .armed ∧ (acceptStart s).ind = 0 ∧
      (acceptStart s).buttonId = .start ∧ (acceptStart s).sem = true ∧ (acceptStart s).ifg = 0 := by
  and_intros <;> rfl

/-- What colour acceptance writes of the latch: its snapshot is the stopwatch's value before it (R187). -/
@[simp] theorem acceptColour_latch (b : Button) (s : State) :
    (acceptColour b s).elapsed = swValue s ∧ (acceptColour b s).lstate = .locked ∧
      (acceptColour b s).ind = s.ind ||| indicatorBit b ∧ (acceptColour b s).buttonId = idOfButton b ∧
      (acceptColour b s).sem = true ∧ (acceptColour b s).ifg = 0 :=
  ⟨swValue_swStop s, rfl, rfl, rfl, rfl, rfl⟩

/-- No command raises SEM. -/
theorem commandEffect_sem_of_clear (i : Instr) {s : State} (h : s.sem = false) : (commandEffect i s).sem = false := by
  cases i <;> simp [commandEffect, h]

/-- No event but the arbiter's writes SEM. -/
theorem runEvent_sem {e : Event} (he : e ≠ .arbitrate) (s : State) : (runEvent e s).sem = s.sem := by
  obtain ⟨-, h⟩ | ⟨-, h⟩ := runEvent_cases e s
  · rw [h]
    cases e with
    | arbitrate => exact absurd rfl he
    | _ => simp [eventEffect]
  · rw [h]

/-- A turn that raises SEM is the arbiter's and has its effect (R88). -/
theorem TurnEffect.arbitrate_of_sem_rises {s s' : State} {t : Turn} (h : TurnEffect s t s') (hs : s.sem = false)
    (hs' : s'.sem = true) : t = .event .arbitrate ∧ s' = arbitrate s := by
  cases h with
  | reset l => simp [relaunch, State.launch] at hs'
  | event e =>
    by_cases he : e = .arbitrate
    · subst he
      obtain ⟨-, hr⟩ | ⟨-, hr⟩ := runEvent_cases .arbitrate s
      · exact ⟨rfl, hr⟩
      · simp [hr, hs] at hs'
    · simp [runEvent_sem he, hs] at hs'
  | idle _ => simp [hs] at hs'
  | illegal _ _ _ _ => simp [hs] at hs'
  | held _ _ _ _ _ _ => simp [hs] at hs'
  | command _ _ i _ _ _ => simp [commandEffect_sem_of_clear i hs] at hs'

/-- An arbiter step that raises SEM leaves the winner, the stopwatch's value, the latch state and indicator of that winner
and no flag, whichever acceptance it is (R186, R187). -/
theorem arbitrate_publishes {s : State} (hs : s.sem = false) (hs' : (arbitrate s).sem = true) :
    (arbitrate s).elapsed = swValue s ∧ (arbitrate s).ifg = 0 ∧
      ∃ b, winner s = some b ∧ (arbitrate s).buttonId = idOfButton b ∧
        (arbitrate s).lstate = (if b = .start then .armed else .locked) ∧
        (arbitrate s).ind = (if b = .start then 0 else s.ind ||| indicatorBit b) := by
  obtain ⟨-, ha⟩ | ⟨-, hsem, -⟩ | ⟨hw, -, ha⟩ | ⟨b, hb, hw, -, ha⟩ := arbitrate_cases s
  · simp [ha, hs] at hs'
  · simp [hs] at hsem
  · simp [ha, hw, idOfButton]
  · simp [ha, hw, hb]

/-- Settles O43: a step that raises SEM is an acceptance on the state from which the turn is taken. -/
theorem mailboxIsPublishedInOneStep : Obligations.MailboxIsPublishedInOneStep := by
  intro s t hstep hs ht
  obtain ⟨-, -, heff⟩ := step_next hstep
  obtain ⟨hturn, rfl⟩ := heff.arbitrate_of_sem_rises (by simpa using hs) ht
  exact ⟨hturn, by simpa using arbitrate_publishes (by simpa using hs) ht⟩

end Sys2Proof.Machine

/-! The opcode map and the words outside it (30_encoding.md R102, R103; 60_exceptions.md R310). -/

namespace Sys2Proof

/-- Words with equal fields are equal. -/
theorem word_eq_of_fields {v w : Word} (hg : grp v = grp w) (hf : fn v = fn w) (hi : imm8 v = imm8 w) : v = w :=
  BitVec.eq_of_toNat_eq (by rw [word_eq_fields v, word_eq_fields w, hg, hf, hi])

/-- A word that stands in the row of a command without an operand and is decoded is that command's encoding. -/
theorem eq_encode_of_noImm {w : Word} {i j : Instr} (h : noImm w i = .ok j) (hg : grp w = grp (encode i))
    (hf : fn w = fn (encode i)) (hi : imm8 (encode i) = 0) : w = encode j := by
  obtain ⟨h0, rfl⟩ := (noImm_ok_iff w i j).mp h
  exact word_eq_of_fields hg hf (h0.trans hi.symm)

/-- The fields of a SEND word: group 2, function 0 and the operand. -/
theorem encode_send_fields (b : Byte) :
    grp (encode (.send b)) = 2 ∧ fn (encode (.send b)) = 0 ∧ imm8 (encode (.send b)) = b := by
  revert b; decide

/-- A word that is decoded is the encoding of what it decodes to. -/
theorem eq_encode_of_decode {w : Word} {i : Instr} (h : decode w = .ok i) : w = encode i := by
  unfold decode at h
  split at h
  case h_1 hg =>
    split at h
    case h_3 => cases h
    all_goals next hf => exact eq_encode_of_noImm h hg hf rfl
  case h_2 hg =>
    split at h
    case h_5 => cases h
    all_goals next hf => exact eq_encode_of_noImm h hg hf rfl
  case h_3 hg =>
    split at h
    case h_1 hf =>
      cases h
      obtain ⟨hg', hf', hi⟩ := encode_send_fields (imm8 w)
      exact word_eq_of_fields (hg.trans hg'.symm) (hf.trans hf'.symm) hi.symm
    case h_4 => cases h
    all_goals next hf => exact eq_encode_of_noImm h hg hf rfl
  case h_4 hg =>
    split at h
    case h_7 => cases h
    all_goals next hf => exact eq_encode_of_noImm h hg hf rfl
  case h_5 => cases h

/-- Decoding gives an instruction exactly on its own word. -/
theorem decode_ok_iff_eq_encode {w : Word} {i : Instr} : decode w = .ok i ↔ w = encode i :=
  ⟨eq_encode_of_decode, fun h => h ▸ Machine.decode_encode i⟩

/-- A row with the full mask matches one word, and that word decodes to the row's instruction (R102). -/
theorem decode_ok_iff_fullMask (w : Word) (i : Instr) : decode w = .ok i ↔ w &&& 0xFFFF = encode i := by
  have hmask : w &&& 0xFFFF = w := BitVec.and_allOnes
  rw [hmask, decode_ok_iff_eq_encode]

/-- The encoding of SEND: its opcode byte above its operand. -/
theorem encode_send_eq_append (b : Byte) : encode (.send b) = 0x20#8 ++ b := by revert b; decide

/-- A word is in SEND's row exactly when its high byte is SEND's opcode byte. -/
theorem and_highMask_eq_send_iff (w : Word) : w &&& 0xFF00 = 0x2000 ↔ w.extractLsb' 8 8 = 0x20#8 := by
  have hhigh : w &&& 0xFF00 = w.extractLsb' 8 8 ++ 0#8 :=
    calc w &&& 0xFF00
      _ = (w.extractLsb' 8 8 ++ w.extractLsb' 0 8) &&& (0xFF#8 ++ 0#8) := by rw [highByte_append_lowByte]; rfl
      _ = w.extractLsb' 8 8 ++ 0#8 := by
        rw [BitVec.and_append, BitVec.and_zero]; exact congrArg (· ++ 0#8) BitVec.and_allOnes
  rw [hhigh]
  constructor
  · intro h
    have hbyte := congrArg (BitVec.extractLsb' 8 8) h
    rwa [BitVec.extractLsb'_append_eq_left] at hbyte
  · intro h
    rw [h]
    rfl

/-- SEND's row ignores the low byte in the match and takes it as the operand (R102). -/
theorem decode_send_iff (w : Word) (b : Byte) :
    decode w = .ok (.send b) ↔ w &&& 0xFF00 = 0x2000 ∧ w.toNat % 256 = b.toNat := by
  rw [decode_ok_iff_eq_encode, encode_send_eq_append, and_highMask_eq_send_iff, ← imm8_toNat, ← BitVec.toNat_eq, imm8]
  constructor
  · rintro rfl
    exact ⟨BitVec.extractLsb'_append_eq_left, BitVec.extractLsb'_append_eq_right⟩
  · rintro ⟨hhigh, hlow⟩
    rw [← hhigh, ← hlow, highByte_append_lowByte]

/-- How many functions of a group the opcode map assigns: they are the lowest ones (R102). -/
def assignedFunctions : Nat → Nat
  | 0 => 2
  | 1 => 4
  | 2 => 3
  | 3 => 6
  | _ => 0

/-- A command without an operand is refused at every immediate but 0. -/
theorem noImm_no_instr_iff (w : Word) (i : Instr) : (∀ j, noImm w i ≠ .ok j) ↔ imm8 w ≠ 0 := by
  simp [noImm_ok_iff]

/-- The groups from 4 on assign none (R103). -/
theorem assignedFunctions_of_four_le {g : Nat} (h : 4 ≤ g) : assignedFunctions g = 0 := by
  match g, h with
  | _ + 4, _ => rfl

/-- The illegal words: an unassigned function, or an immediate that is not 0 where the command is not SEND. -/
theorem decode_no_instr_iff (w : Word) :
    (∀ i, decode w ≠ .ok i) ↔
      assignedFunctions (grp w) ≤ fn w ∨ (imm8 w ≠ 0 ∧ ¬(grp w = 2 ∧ fn w = 0)) := by
  unfold decode
  split
  case h_5 h0 h1 h2 h3 =>
    have hg : 4 ≤ grp w := by grind
    simp [assignedFunctions_of_four_le hg]
  all_goals next hg =>
    rw [hg, assignedFunctions]
    -- An assigned function leaves the question of the immediate; past them all, FN has reached the bound.
    split
    all_goals next hf => simp [noImm_no_instr_iff, hf] <;> grind

/-- The illegal words as R103 lists them. -/
theorem decode_no_instr_iff_toNat (w : Word) :
    (∀ i, decode w ≠ .ok i) ↔
      let g := w.toNat / 4096
      let f := w.toNat / 256 % 16
      let imm := w.toNat % 256
      4 ≤ g ∨ (g = 0 ∧ w ≠ 0x0000 ∧ w ≠ 0x0100) ∨ (g = 1 ∧ (4 ≤ f ∨ imm ≠ 0)) ∨
        (g = 2 ∧ (3 ≤ f ∨ ((f = 1 ∨ f = 2) ∧ imm ≠ 0))) ∨ (g = 3 ∧ (6 ≤ f ∨ imm ≠ 0)) := by
  have h0 : w = 0x0000 ↔ w.toNat = 0 := BitVec.toNat_eq
  have h1 : w = 0x0100 ↔ w.toNat = 256 := BitVec.toNat_eq
  rw [decode_no_instr_iff, grp_eq, fn_eq, ne_eq, imm8_eq_zero_iff]
  simp only [ne_eq, h0, h1]
  obtain hg | hg | hg | hg | hg : w.toNat / 4096 = 0 ∨ w.toNat / 4096 = 1 ∨ w.toNat / 4096 = 2 ∨
      w.toNat / 4096 = 3 ∨ 4 ≤ w.toNat / 4096 := by omega
  case inr.inr.inr.inr => rw [assignedFunctions_of_four_le hg]; omega
  all_goals rw [hg, assignedFunctions]; omega

end Sys2Proof

namespace Sys2Proof.Machine

/-- Settles O2, row by row. -/
theorem opcodeMapRowsDecode : Obligations.OpcodeMapRowsDecode := fun w =>
  ⟨decode_ok_iff_fullMask w .nop, decode_ok_iff_fullMask w .fltrd, decode_ok_iff_fullMask w .tstart,
    decode_ok_iff_fullMask w .tstop, decode_ok_iff_fullMask w .tnow, decode_ok_iff_fullMask w .tread,
    decode_send_iff w, decode_ok_iff_fullMask w .recv, decode_ok_iff_fullMask w .ustat,
    decode_ok_iff_fullMask w .lpoll, decode_ok_iff_fullMask w .lelap, decode_ok_iff_fullMask w .lack,
    decode_ok_iff_fullMask w .lzero, decode_ok_iff_fullMask w .lclrf, decode_ok_iff_fullMask w .iclr⟩

/-- On HOST's turn a ready block answers an illegal word with FAULT_ILL and the response 0 (R142, R310). -/
theorem hostTurn_illegal {s : State} {w : Word} {ws : List Word} (hr : Ready s) (hp : s.program = w :: ws)
    (hd : ∀ i, decode w ≠ .ok i) : hostTurn s = .next (respond 0 (raiseFault .illegalCmd s)) := by
  cases he : decode w with
  | ok i => exact absurd he (hd i)
  | error e =>
    simp only [hostTurn, presentedWord, hp, List.head?_cons, he]
    exact command_ready hr _ _

/-- Settles O3: the words of R103 are the undecoded ones, and HOST's turn at one of them raises ILLEGAL_CMD only. -/
theorem illegalWordOnlySetsFaultIll : Obligations.IllegalWordOnlySetsFaultIll := by
  refine fun w => ⟨decode_no_instr_iff_toNat w, fun s ws ts hr ht hp hd => ?_⟩
  have hhost : hostTurn { s with turns := ts } = _ := hostTurn_illegal hr hp hd
  rw [step, nextTurn_cons ht, takeTurn_cons ht, runTurn, hhost]
  simp [respond, raiseFault, hp]

end Sys2Proof.Machine

/-! The block control commands (40_block.md R140, R141). -/

namespace Sys2Proof.Machine

/-- FLTRD's word is FAULT_ILL, as a number (R141). -/
theorem fltrdWord_toNat (s : State) : (fltrdWord s).toNat = if s.faultIll then 1 else 0 := by
  cases h : s.faultIll <;> simp [fltrdWord, h]

/-- Settles O9: NOP is never held, its effect is the identity, and its response is 0. -/
theorem nopChangesNothing : Obligations.NopChangesNothing :=
  ⟨decode_encode .nop, fun _ hr => exec_completes hr rfl⟩

/-- Settles O10: FLTRD is never held, its effect is the identity, and its response is the number of `fltrdWord`. -/
theorem fltrdReturnsFaultFlag : Obligations.FltrdReturnsFaultFlag := by
  refine ⟨decode_encode .fltrd, fun s hr => ?_⟩
  rw [exec_completes hr rfl, ← fltrdWord_toNat s]
  rfl

end Sys2Proof.Machine

/-! The Timer Resource's commands and the two clock ticks (41_timer.md R150 to R158), with the compare actions of a bit-clock
tick (43_uart_tx.md R223, 44_uart_rx.md R252, R253). -/

namespace Sys2Proof.Machine

/-- Settles O11: TSTART's effect is `swStart`, by topology, and its response is 0. -/
theorem tstartRestartsStopwatch : Obligations.TstartRestartsStopwatch := by
  refine ⟨decode_encode .tstart, fun s hr => ?_⟩
  have hexec : exec .tstart s = .next (respond 0 (swStart s)) := exec_completes hr rfl
  exact ⟨fun ht => by rw [hexec, swStart_split ht]; rfl, fun ht => by rw [hexec, swStart_shared ht]; rfl⟩

/-- Settles O12: TSTOP's effect is `swStop`, by topology, and its response is 0. -/
theorem tstopFreezesStopwatch : Obligations.TstopFreezesStopwatch := by
  refine ⟨decode_encode .tstop, fun s hr => ?_⟩
  have hexec : exec .tstop s = .next (respond 0 (swStop s)) := exec_completes hr rfl
  exact ⟨fun ht => by rw [hexec, swStop_split ht]; rfl, fun ht => by rw [hexec, swStop_shared ht]; rfl⟩

/-- `sw_value()` as one expression (R152). -/
theorem swValue_eq_ite (s : State) : swValue s = if s.cfg.topology = .split then s.swcnt else s.cnt := by
  cases h : s.cfg.topology with
  | split => simp [swValue_split h]
  | shared => simp [swValue_shared h]

/-- Settles O14: TREAD has no effect, and its response is `swValue`. -/
theorem treadReturnsStopwatch : Obligations.TreadReturnsStopwatch := by
  refine ⟨decode_encode .tread, fun s hr => ?_⟩
  rw [exec_completes hr rfl, ← swValue_eq_ite]
  rfl

/-- Whether an event has a step does not depend on the turns. -/
theorem eventEnabled_turns (e : Event) (s : State) (ts : List Turn) :
    eventEnabled e { s with turns := ts } = eventEnabled e s := by
  cases e <;> rfl

/-- A ready block's step at the turn of an enabled event is the event's effect (R117). -/
theorem step_enabledEvent {s : State} {e : Event} {ts : List Turn} (hr : Ready s) (ht : s.turns = .event e :: ts)
    (he : eventEnabled e s = true) : step s = .next (eventEffect e { s with turns := ts }) := by
  rw [step, nextTurn_cons ht, takeTurn_cons ht, runTurn, eventTurn, runEvent, eventEnabled_turns, if_pos he]
  exact guarded_ready hr _

/-- A stopwatch tick while SW_RUN = 1 counts (R151). -/
theorem swclkTick_running {s : State} (h : s.swRun = true) :
    swclkTick s = { s with swcnt := addT s.cfg s.swcnt 1 } := if_pos h

/-- A stopwatch tick while SW_RUN = 0 changes nothing (R151). -/
theorem swclkTick_stopped {s : State} (h : s.swRun = false) : swclkTick s = s := by simp [swclkTick, h]

/-- Settles O32: the tick is enabled under SPLIT only, and then it counts or not by SW_RUN. -/
theorem swclkTickAdvancesStopwatch : Obligations.SwclkTickAdvancesStopwatch := by
  intro s ts hr ht
  have hen : eventEnabled .swclkTick s = decide (s.cfg.topology = .split) := rfl
  refine ⟨fun hsplit hrun => ?_, fun hsplit hrun => ?_, fun hshared => ?_⟩
  · rw [step_enabledEvent hr ht (by simp [hen, hsplit])]
    exact congrArg _ (swclkTick_running hrun)
  · rw [step_enabledEvent hr ht (by simp [hen, hsplit])]
    exact congrArg _ (swclkTick_stopped hrun)
  · simp [hen, hshared]

theorem txChannel_match {s : State} (h : s.txIe = true ∧ s.cnt = s.txccr) : txChannel s = txCompareAction s := if_pos h

theorem rxChannel_match {s : State} (h : s.rxMode = .compare ∧ s.cnt = s.rxccr) :
    rxChannel s = rxCompareAction s := if_pos h

/-- The transmitter after the TX channel of a tick, with or without a match (R223). -/
theorem txChannel_eq (s : State) :
    let tx := s.txIe = true ∧ s.cnt = s.txccr
    txChannel s = { s with
      txccr := if tx then addT s.cfg s.txccr s.cfg.bitp else s.txccr
      txd := if tx then s.txsr.getLsbD 0 else s.txd
      txsr := if tx then s.txsr >>> 1 else s.txsr
      txbitcnt := if tx then (if s.txbitcnt - 1 = 0 then s.cfg.txReload else s.txbitcnt - 1) else s.txbitcnt
      txIe := if tx ∧ s.txbitcnt - 1 = 0 then false else s.txIe } := by
  by_cases h : s.txIe = true ∧ s.cnt = s.txccr
  · rw [txChannel_match h]
    simp only [txCompareAction, h, true_and, if_true]
  · rw [txChannel_noMatch h]
    simp only [h, false_and, if_false]

/-- The receiver after the RX compare action, the publication included (R252, R253). -/
theorem rxCompareAction_eq (s : State) :
    let sample := (s.rxsr >>> 1) ||| ((BitVec.ofBool s.rxd).setWidth 8 <<< 7)
    let last := s.rxbitcnt - 1 = 0
    rxCompareAction s = { s with
      rxccr := addT s.cfg s.rxccr s.cfg.bitp
      rxsr := sample
      rxbitcnt := if last then s.cfg.rxReload else s.rxbitcnt - 1
      rxbuf := if last then sample else s.rxbuf
      rxavail := if last then true else s.rxavail
      rxMode := if last then .capture else s.rxMode } := by
  intro sample last
  have hlast : (rxSample s).rxbitcnt = 0 ↔ last := Iff.rfl
  simp only [rxCompareAction, hlast]
  by_cases h : last
  · simp only [if_pos h]; rfl
  · simp only [if_neg h]; rfl

/-- The receiver after the RX channel of a tick, with or without a match (R252, R253). -/
theorem rxChannel_eq (s : State) :
    let rx := s.rxMode = .compare ∧ s.cnt = s.rxccr
    let sample := (s.rxsr >>> 1) ||| ((BitVec.ofBool s.rxd).setWidth 8 <<< 7)
    rxChannel s = { s with
      rxccr := if rx then addT s.cfg s.rxccr s.cfg.bitp else s.rxccr
      rxsr := if rx then sample else s.rxsr
      rxbitcnt := if rx then (if s.rxbitcnt - 1 = 0 then s.cfg.rxReload else s.rxbitcnt - 1) else s.rxbitcnt
      rxbuf := if rx ∧ s.rxbitcnt - 1 = 0 then sample else s.rxbuf
      rxavail := if rx ∧ s.rxbitcnt - 1 = 0 then true else s.rxavail
      rxMode := if rx ∧ s.rxbitcnt - 1 = 0 then .capture else s.rxMode } := by
  by_cases h : s.rxMode = .compare ∧ s.cnt = s.rxccr
  · rw [rxChannel_match h, rxCompareAction_eq]
    simp only [h, true_and, if_true]
  · rw [rxChannel_noMatch h]
    simp only [h, false_and, if_false]

/-- A bit-clock tick while CNT_RUN = 1 counts and then runs both channels (R150). -/
theorem bclkTick_running {s : State} (h : s.cntRun = true) :
    bclkTick s = rxChannel (txChannel (countTick s)) := if_pos h

/-- Settles O30: both channels test the count just written, and neither writes what the other one tests. -/
theorem bclkTickCountsAndRunsCompareActions : Obligations.BclkTickCountsAndRunsCompareActions := by
  intro s ts hr ht
  have hstep : step s = .next (bclkTick { s with turns := ts }) := step_enabledEvent hr ht rfl
  rw [hstep]
  refine ⟨fun hrun => congrArg _ (bclkTick_stopped hrun), fun hrun => congrArg _ ?_⟩
  obtain ⟨htx, hrx⟩ := reload_of_ok hr.1
  rw [bclkTick_running (s := { s with turns := ts }) hrun, rxChannel_eq, txChannel_eq]
  simp only [countTick, htx, hrx]
  rfl

end Sys2Proof.Machine

/-! The button latch: the edges, the arbiter and its two acceptances, and the latch commands (42_latch.md R180 to R194). -/

namespace Sys2Proof.Machine

/-- Settles O21: LZERO is never held, and its response is 0. -/
theorem lzeroClearsElapsedOnly : Obligations.LzeroClearsElapsedOnly :=
  ⟨decode_encode .lzero, fun _ hr => exec_completes hr rfl⟩

/-- Settles O22: LCLRF is never held, its response is 0, and an arbiter step needs a flag. -/
theorem lclrfClearsEdgeFlagsOnly : Obligations.LclrfClearsEdgeFlagsOnly :=
  ⟨decode_encode .lclrf, fun _ hr => ⟨exec_completes hr rfl, rfl⟩⟩

/-- Settles O23: ICLR is never held, and its response is 0. -/
theorem iclrClearsIndicatorsOnly : Obligations.IclrClearsIndicatorsOnly :=
  ⟨decode_encode .iclr, fun _ hr => exec_completes hr rfl⟩

/-! ### The LPOLL word -/

/-- Concatenation puts its left part above its right one. -/
theorem toNat_append_eq_add {m n : Nat} (x : BitVec m) (y : BitVec n) :
    (x ++ y).toNat = 2 ^ n * x.toNat + y.toNat := by
  rw [BitVec.toNat_append, ← Nat.shiftLeft_add_eq_or_of_lt y.isLt, Nat.shiftLeft_eq, Nat.mul_comm]

theorem lstateBit_toNat (l : LatchState) : (lstateBit l).toNat = if l = .locked then 1 else 0 := by
  cases l <;> rfl

/-- SW_RUN as one expression (R34). -/
theorem swRunning_eq_ite (s : State) : swRunning s = if s.cfg.topology = .split then s.swRun else s.cntRun := by
  cases h : s.cfg.topology <;> simp [swRunning, h]

/-- LPOLL's word as the sum of its fields (R107). -/
theorem lpollWord_toNat (s : State) :
    (lpollWord s).toNat = s.sem.toNat + 2 * (buttonCode s.buttonId).toNat + 16 * (lstateBit s.lstate).toNat +
      32 * s.ifg.toNat + 1024 * s.ind.toNat + 16384 * (swRunning s).toNat := by
  simp only [lpollWord, toNat_append_eq_add, BitVec.toNat_ofBool, BitVec.toNat_ofNat]
  omega

/-- Settles O18: LPOLL has no effect, and its response is the number of `lpollWord`, field by field. -/
theorem lpollReturnsLatchStatus : Obligations.LpollReturnsLatchStatus := by
  refine ⟨decode_encode .lpoll, fun s hr => ?_⟩
  have hexec : exec .lpoll s = .next (respond (lpollWord s).toNat s) := exec_completes hr rfl
  rw [hexec, lpollWord_toNat, lstateBit_toNat, swRunning_eq_ite]
  refine congrArg (fun v => Host.Outcome.next (respond v s)) ?_
  cases s.buttonId <;> rfl

/-! ### The pins and the edge flags -/

/-- An input's bit is at its own index only (R56). -/
@[simp] theorem buttonBit_getLsbD (b c : Button) : (buttonBit b).getLsbD (buttonIndex c) = decide (c = b) := by
  cases b <;> cases c <;> rfl

theorem buttonIndex_lt (b : Button) : buttonIndex b < 5 := by cases b <;> decide

/-- The five inputs have the five indices. -/
theorem exists_buttonIndex_eq {i : Nat} (h : i < 5) : ∃ b, buttonIndex b = i := by
  match i with
  | 0 => exact ⟨.start, rfl⟩
  | 1 => exact ⟨.red, rfl⟩
  | 2 => exact ⟨.green, rfl⟩
  | 3 => exact ⟨.white, rfl⟩
  | 4 => exact ⟨.blue, rfl⟩

/-- START is always enabled, a colour while ARMED (R180). -/
theorem inputEnabled_iff (b : Button) (s : State) : inputEnabled b s = true ↔ b = .start ∨ s.lstate = .armed := by
  cases b <;> cases h : s.lstate <;> simp [inputEnabled, h]

/-- A press lowers its own pin (R181). -/
theorem pinHigh_press (b c : Button) (s : State) : pinHigh c (press b s) = if c = b then false else pinHigh c s := by
  simp only [pinHigh, press, BitVec.getLsbD_and, BitVec.getLsbD_not, buttonBit_getLsbD, buttonIndex_lt]
  by_cases h : c = b <;> simp [h]

/-- A release raises its own pin (R182). -/
theorem pinHigh_release (b c : Button) (s : State) : pinHigh c (release b s) = if c = b then true else pinHigh c s := by
  simp only [pinHigh, release, BitVec.getLsbD_or, buttonBit_getLsbD]
  by_cases h : c = b <;> simp [h]

/-- A press sets its own flag, and only while the input is enabled (R180, R181). -/
theorem flagSet_press (b c : Button) (s : State) :
    flagSet c (press b s) = if c = b ∧ (b = .start ∨ s.lstate = .armed) then true else flagSet c s := by
  simp only [flagSet, press, inputEnabled_iff]
  by_cases hen : b = .start ∨ s.lstate = .armed
  · simp only [hen, if_true, and_true, BitVec.getLsbD_or, buttonBit_getLsbD]
    by_cases h : c = b <;> simp [h]
  · simp only [hen, if_false, and_false]

/-- Settles O34: the step is `press` with the turn taken, which writes the one pin and at most the one flag. -/
theorem pressSetsFlagOfEnabledInput : Obligations.PressSetsFlagOfEnabledInput :=
  fun s b => ⟨rfl, fun ts hr ht hpin =>
    ⟨press b { s with turns := ts }, step_enabledEvent hr ht hpin, fun c => pinHigh_press b c _,
      fun c => flagSet_press b c _, rfl⟩⟩

/-- Settles O35: the step is `release` with the turn taken, which writes the one pin. -/
theorem releaseOnlyRaisesPin : Obligations.ReleaseOnlyRaisesPin :=
  fun s b => ⟨rfl, fun ts hr ht hpin =>
    ⟨release b { s with turns := ts }, step_enabledEvent hr ht (by simp [eventEnabled, hpin]),
      fun c => pinHigh_release b c _, rfl⟩⟩

/-! ### The arbiter's winner -/

/-- IFG is 0 exactly when no input's flag is set. -/
theorem ifg_eq_zero_iff (s : State) : s.ifg = 0 ↔ ∀ b, flagSet b s = false := by
  constructor
  · intro h b
    simp [flagSet, h]
  · refine fun h => BitVec.eq_of_getLsbD_eq fun i hi => ?_
    obtain ⟨b, rfl⟩ := exists_buttonIndex_eq hi
    simpa [flagSet] using h b

theorem ifg_ne_zero_of_flagSet {b : Button} {s : State} (h : flagSet b s = true) : s.ifg ≠ 0 := fun hz => by
  simp [(ifg_eq_zero_iff s).mp hz b] at h

/-- PRIO lists every input (R183). -/
theorem mem_priorityOrder (c : Config) (b : Button) : b ∈ priorityOrder c := by
  cases h : c.gwOrder <;> cases b <;> simp [priorityOrder, h]

/-- PRIO is in the order of the ranks (R183). -/
theorem priorityOrder_pairwise (c : Config) : (priorityOrder c).Pairwise (priorityRank c · < priorityRank c ·) := by
  cases h : c.gwOrder <;> simp [priorityOrder, priorityRank, h]

/-- In a list in the order of `r`, the first element with a property is the one of least `r`. -/
theorem find?_eq_some_iff_least {α : Type} {r : α → Nat} {p : α → Bool} {l : List α}
    (hl : l.Pairwise (r · < r ·)) {b : α} :
    l.find? p = some b ↔ b ∈ l ∧ p b = true ∧ ∀ c ∈ l, p c = true → r b ≤ r c := by
  induction l with
  | nil => simp
  | cons a l ih =>
    obtain ⟨ha, hl⟩ := List.pairwise_cons.mp hl
    cases hp : p a with
    | false =>
      rw [List.find?_cons_of_neg (by simp [hp]), ih hl]
      grind
    | true =>
      rw [List.find?_cons_of_pos hp, Option.some_inj]
      constructor
      · rintro rfl
        refine ⟨List.mem_cons_self, hp, fun c hc _ => ?_⟩
        obtain rfl | hc := List.mem_cons.mp hc
        · exact le_rfl
        · exact (ha c hc).le
      · rintro ⟨hb, -, hleast⟩
        obtain rfl | hb := List.mem_cons.mp hb
        · rfl
        · exact absurd (ha b hb) (hleast a List.mem_cons_self hp).not_gt

/-- The winner is the pending input of least rank (R183, R184). -/
theorem winner_eq_some_iff (s : State) (b : Button) :
    winner s = some b ↔
      flagSet b s = true ∧ ∀ c, flagSet c s = true → priorityRank s.cfg b ≤ priorityRank s.cfg c := by
  rw [winner, find?_eq_some_iff_least (priorityOrder_pairwise s.cfg)]
  simp only [mem_priorityOrder, true_and, forall_true_left]

/-- There is no winner exactly when no flag is set (R184). -/
theorem winner_eq_none_iff (s : State) : winner s = none ↔ s.ifg = 0 := by
  rw [winner, List.find?_eq_none, ifg_eq_zero_iff]
  simp [mem_priorityOrder]

/-- Settles O36: PRIO lists every input once, in the order of the ranks. -/
theorem winnerIsFirstPendingInPriorityOrder : Obligations.WinnerIsFirstPendingInPriorityOrder :=
  fun s b => ⟨winner_eq_some_iff s b, winner_eq_none_iff s⟩

/-- START wins whenever its flag is set (R316(c)). -/
theorem winner_start {s : State} (h : flagSet .start s = true) : winner s = some .start :=
  (winner_eq_some_iff s .start).mpr ⟨h, fun _ _ => Nat.zero_le _⟩

/-! ### The arbiter's step -/

/-- A ready block's step at the arbiter's turn with some flag set is `arbitrate` (R184). -/
theorem step_arbitrate {s : State} {ts : List Turn} (hr : Ready s) (ht : s.turns = .event .arbitrate :: ts)
    (hifg : s.ifg ≠ 0) : step s = .next (arbitrate { s with turns := ts }) :=
  step_enabledEvent hr ht (decide_eq_true hifg)

/-- While SEM = 1 the arbiter discards the flags (R185). -/
theorem arbitrate_discards {s : State} (hifg : s.ifg ≠ 0) (hs : s.sem = true) :
    arbitrate s = { s with ifg := 0 } := by
  obtain ⟨hw, -⟩ | ⟨-, -, ha⟩ | ⟨-, hs', -⟩ | ⟨b, -, -, hs', -⟩ := arbitrate_cases s
  · exact absurd ((winner_eq_none_iff s).mp hw) hifg
  · exact ha
  · simp [hs] at hs'
  · simp [hs] at hs'

/-- While SEM = 0 a winning START is accepted (R186). -/
theorem arbitrate_start {s : State} (hw : winner s = some .start) (hs : s.sem = false) :
    arbitrate s = acceptStart s := by
  simp [arbitrate, hw, hs]

/-- While SEM = 0 a winning colour is accepted (R187). -/
theorem arbitrate_colour {s : State} {b : Button} (hw : winner s = some b) (hb : b ≠ .start) (hs : s.sem = false) :
    arbitrate s = acceptColour b s := by
  cases b with
  | start => exact absurd rfl hb
  | _ => simp [arbitrate, hw, hs]

theorem acceptStart_split {s : State} (h : s.cfg.topology = .split) :
    acceptStart s = { s with
      elapsed := s.swcnt, swcnt := 0, swRun := true, lstate := .armed, ind := 0, buttonId := .start, sem := true,
      ifg := 0 } := by
  rw [acceptStart, swStart_split h, swValue_split h]

theorem acceptStart_shared {s : State} (h : s.cfg.topology = .shared) :
    acceptStart s = { s with
      elapsed := s.cnt, cnt := 0, cntRun := true, lstate := .armed, ind := 0, buttonId := .start, sem := true,
      ifg := 0 } := by
  rw [acceptStart, swStart_shared h, swValue_shared h]

theorem acceptColour_split {s : State} (b : Button) (h : s.cfg.topology = .split) :
    acceptColour b s = { s with
      elapsed := s.swcnt, swRun := false, buttonId := idOfButton b, ind := s.ind ||| indicatorBit b, lstate := .locked,
      sem := true, ifg := 0 } := by
  rw [acceptColour, swValue_swStop, swStop_split h, swValue_split h]

theorem acceptColour_shared {s : State} (b : Button) (h : s.cfg.topology = .shared) :
    acceptColour b s = { s with
      elapsed := s.cnt, cntRun := false, buttonId := idOfButton b, ind := s.ind ||| indicatorBit b, lstate := .locked,
      sem := true, ifg := 0 } := by
  rw [acceptColour, swValue_swStop, swStop_shared h, swValue_shared h]

/-- Settles O37: of the arbiter's cases only the discard has SEM = 1 and a flag set. -/
theorem arbiterDiscardsWhileSemaphoreSet : Obligations.ArbiterDiscardsWhileSemaphoreSet := by
  intro s ts hr ht hifg hs
  have hdiscard : arbitrate { s with turns := ts } = { s with turns := ts, ifg := 0 } := arbitrate_discards hifg hs
  rw [step_arbitrate hr ht hifg, hdiscard]

/-- Settles O38: START has the least rank, so its flag makes it the winner, and the rest is `acceptStart` by topology. -/
theorem startAcceptanceArmsAndSnapshots : Obligations.StartAcceptanceArmsAndSnapshots := by
  intro s ts hr ht hflag hs
  have haccept : arbitrate { s with turns := ts } = acceptStart { s with turns := ts } :=
    arbitrate_start (winner_start hflag) hs
  rw [step_arbitrate hr ht (ifg_ne_zero_of_flagSet hflag), haccept]
  exact ⟨fun h => congrArg _ (acceptStart_split h), fun h => congrArg _ (acceptStart_shared h)⟩

/-- The mailbox's code of an input is its index plus one (R51, R56). -/
theorem buttonCode_idOfButton (b : Button) : (buttonCode (idOfButton b)).toNat = buttonIndex b + 1 := by
  cases b <;> rfl

/-- A colour's indicator is the bit below its index, and START has none (R53, R56). -/
@[simp] theorem indicatorBit_getLsbD (b : Button) (k : Nat) :
    (indicatorBit b).getLsbD k = decide (k + 1 = buttonIndex b) := by
  by_cases hk : k < 4
  · revert k
    cases b <;> decide
  · have hb := buttonIndex_lt b
    rw [BitVec.getLsbD_of_ge _ _ (by omega), eq_comm, decide_eq_false_iff_not]
    omega

/-- Settles O39: a pending colour of least rank is the winner, and the rest is `acceptColour` by topology. -/
theorem colourAcceptanceLocksAndSnapshots : Obligations.ColourAcceptanceLocksAndSnapshots := by
  intro s b ts hr ht hs hb hflag hleast
  have hwin : winner s = some b := (winner_eq_some_iff s b).mpr ⟨hflag, hleast⟩
  have haccept : arbitrate { s with turns := ts } = acceptColour b { s with turns := ts } :=
    arbitrate_colour hwin hb hs
  refine ⟨acceptColour b { s with turns := ts }, ?_, rfl, buttonCode_idOfButton b, fun k => ?_,
    acceptColour_split (s := { s with turns := ts }) b, acceptColour_shared (s := { s with turns := ts }) b⟩
  · rw [step_arbitrate hr ht (ifg_ne_zero_of_flagSet hflag), haccept]
  · simp

end Sys2Proof.Machine

/-! The UART transmitter's command (43_uart_tx.md R221). -/

namespace Sys2Proof.Machine

/-- Settles O15: SEND is held exactly while TX_IE = 1, and otherwise its effect is `loadFrame` and its response 0. -/
theorem sendStartsFrameOrHolds : Obligations.SendStartsFrameOrHolds :=
  ⟨fun b => decode_encode (.send b), fun s b hr =>
    have hheld : isHeld (.send b) s = s.txIe := rfl
    ⟨fun hidle => exec_completes hr (hheld.trans hidle), fun hbusy => exec_holds hr (hheld.trans hbusy)⟩⟩

end Sys2Proof.Machine

/-! The UART receiver's commands and the RXD change (44_uart_rx.md R250, R251, R255, R256). -/

namespace Sys2Proof.Machine

/-! ### The USTAT word -/

theorem rxModeBit_toNat (m : RxMode) : (rxModeBit m).toNat = if m = .compare then 1 else 0 := by
  cases m <;> rfl

/-- USTAT's word as the sum of its fields (R106). -/
theorem ustatWord_toNat (s : State) :
    (ustatWord s).toNat = s.txIe.toNat + 2 * s.rxavail.toNat + 4 * (rxModeBit s.rxMode).toNat + 8 * s.txd.toNat +
      16 * s.rxd.toNat + 256 * s.txbitcnt.toNat + 4096 * s.rxbitcnt.toNat := by
  simp only [ustatWord, toNat_append_eq_add, BitVec.toNat_ofBool, BitVec.toNat_ofNat]
  omega

/-- Settles O17: USTAT has no effect, and its response is the number of `ustatWord`, field by field. -/
theorem ustatReturnsUartStatus : Obligations.UstatReturnsUartStatus := by
  refine ⟨decode_encode .ustat, fun s hr => ?_⟩
  rw [exec_completes hr rfl, ← rxModeBit_toNat, ← ustatWord_toNat]
  rfl

/-- Settles O16: RECV is never held, its effect is to clear RXAVAIL, and its response is RXBUF. -/
theorem recvReturnsBufferAndClearsAvail : Obligations.RecvReturnsBufferAndClearsAvail :=
  ⟨decode_encode .recv, fun _ hr => exec_completes hr rfl⟩

/-! ### The RXD change -/

/-- Two counter additions in a row reduce as one (00_scope.md R9). -/
theorem addT_addT (c : Config) (a b d : Nat) : addT c (addT c a b) d = (a + b + d) % 2 ^ c.tmrW :=
  Nat.mod_add_mod (a + b) (2 ^ c.tmrW) d

/-- A falling edge in CAPTURE starts the reception, one and a half bit periods before its first sample (R251). -/
theorem rxdSet_startEdge {v : Bool} {s : State} (h : s.rxd = true ∧ v = false ∧ s.rxMode = .capture) :
    rxdSet v s = { s with
      rxd := v
      rxccr := (s.cnt + s.cfg.bitp + s.cfg.halfp) % 2 ^ s.cfg.tmrW
      rxMode := .compare } := by
  rw [rxdSet, if_pos h, startEdgeCapture, addT_addT]

/-- Every other change writes the line only (R250). -/
theorem rxdSet_noCapture {v : Bool} {s : State} (h : ¬(s.rxd = true ∧ v = false ∧ s.rxMode = .capture)) :
    rxdSet v s = { s with rxd := v } := if_neg h

/-- Settles O33: the event is always enabled, and its step is `rxdSet` with the turn taken, with or without a capture. -/
theorem rxdChangeCapturesStartEdge : Obligations.RxdChangeCapturesStartEdge := by
  intro s v ts hr ht
  have hstep : step s = .next (rxdSet v { s with turns := ts }) := step_enabledEvent hr ht rfl
  rw [hstep]
  exact ⟨fun hedge => congrArg _ (rxdSet_startEdge (s := { s with turns := ts }) hedge),
    fun hother => congrArg _ (rxdSet_noCapture (s := { s with turns := ts }) hother)⟩

end Sys2Proof.Machine

/-! The HOST loop's milliseconds and result message (45_host_loop.md R284, R285). -/

namespace Sys2Proof.Machine

/-! ### The scale of any host -/

theorem msOfTicks_mul_le (h : HostConfig) (t : Nat) : msOfTicks h t * h.msDen ≤ t * h.msNum :=
  Nat.div_mul_le_self (t * h.msNum) h.msDen

theorem lt_msOfTicks_succ_mul {h : HostConfig} (hden : 0 < h.msDen) (t : Nat) :
    t * h.msNum < (msOfTicks h t + 1) * h.msDen :=
  (Nat.div_lt_iff_lt_mul hden).mp (Nat.lt_succ_self (msOfTicks h t))

/-- A later snapshot is never fewer milliseconds, so the largest one gives the bound. -/
theorem msOfTicks_mono (h : HostConfig) : Monotone (msOfTicks h) := fun _ _ htu =>
  Nat.div_le_div_right (Nat.mul_le_mul_right h.msNum htu)

/-! ### The reference scale -/

theorem msOfTicks_reference {h : HostConfig} (hnum : h.msNum = 244) (hden : h.msDen = 1000) (t : Nat) :
    msOfTicks h t = t * 244 / 1000 := by rw [msOfTicks, hnum, hden]

/-- The message of a red winner depends on the host by the milliseconds only (R284). -/
theorem reportBytes_red {h : HostConfig} {t ms : Nat} (hms : msOfTicks h t = ms) :
    reportBytes h .red t = some (decimalBytes ms ++ msMark ++ [0x52, 0x2A]) := by subst hms; rfl

theorem decimalBytes_999 : decimalBytes 999 = [0x39, 0x39, 0x39] := by decide

/-- Settles O58: the two bounds of the floor for any scale; at the reference scale the largest snapshot bounds every other,
and the source's 4096 ticks are the digits `999` in the message. -/
theorem millisecondsAreExactFloor : Obligations.MillisecondsAreExactFloor := by
  refine ⟨fun h t hden => ⟨msOfTicks_mul_le h t, lt_msOfTicks_succ_mul hden t⟩, fun h hnum hden => ?_⟩
  have hmax : msOfTicks h 65535 = 15990 := msOfTicks_reference hnum hden 65535
  have hex : msOfTicks h 4096 = 999 := msOfTicks_reference hnum hden 4096
  have hle : ∀ t, t < 2 ^ 16 → msOfTicks h t ≤ 15990 := fun t ht =>
    hmax ▸ msOfTicks_mono h (Nat.le_of_lt_succ ht)
  refine ⟨hle, hmax, hex, ?_⟩
  rw [reportBytes_red hex, decimalBytes_999]
  rfl

end Sys2Proof.Machine

/-! Reset (70_reset_and_hazards.md R350, R351). -/

namespace Sys2Proof.Machine

/-- Settles O25: the two bit counters take their reloads, which a configuration in range fixes to 10 and 8, and every other
element is a constant, CAL_OK's complement, or an input of the reset. -/
theorem resetValuesOfEveryElement : Obligations.ResetValuesOfEveryElement := by
  refine ⟨fun c l hc => ?_, rfl, rfl⟩
  obtain ⟨htx, hrx⟩ := reload_of_ok hc
  simp [State.launch, htx, hrx]

end Sys2Proof.Machine

/-! The decoder as a whole (30_encoding.md R102, R103). -/

namespace Sys2Proof.Machine

/-- Settles O1: a decoded word is the encoding of what it decodes to, and an encoding decodes to its instruction. -/
theorem decodeGivesInstructionIffEncoded : Obligations.DecodeGivesInstructionIffEncoded :=
  fun _ _ => decode_ok_iff_eq_encode

end Sys2Proof.Machine

/-! One tick of the bit clock, channel by channel (41_timer.md R150, 60_exceptions.md R316(a)). -/

namespace Sys2Proof.Machine

/-- Settles O31: neither channel writes an element that the other one tests or writes. -/
theorem compareChannelsCommute : Obligations.CompareChannelsCommute := by
  intro s
  rw [rxChannel_eq (txChannel s), txChannel_eq s, txChannel_eq (rxChannel s), rxChannel_eq s]

theorem txView_eq_iff {s : State} {cfg : Config} {cnt txccr : Nat} {cntRun txIe txd : Bool} {txsr : BitVec 10}
    {txbitcnt : BitVec 4} :
    txView s = (cfg, cnt, cntRun, txccr, txsr, txbitcnt, txIe, txd) ↔
      s.cfg = cfg ∧ s.cnt = cnt ∧ s.cntRun = cntRun ∧ s.txccr = txccr ∧ s.txsr = txsr ∧ s.txbitcnt = txbitcnt ∧
        s.txIe = txIe ∧ s.txd = txd := by
  simp [txView]

theorem rxView_eq_iff {s : State} {rxccr : Nat} {rxsr rxbuf : BitVec 8} {rxbitcnt : BitVec 4} {rxMode : RxMode}
    {rxavail rxd : Bool} :
    rxView s = (rxccr, rxsr, rxbitcnt, rxMode, rxbuf, rxavail, rxd) ↔
      s.rxccr = rxccr ∧ s.rxsr = rxsr ∧ s.rxbitcnt = rxbitcnt ∧ s.rxMode = rxMode ∧ s.rxbuf = rxbuf ∧
        s.rxavail = rxavail ∧ s.rxd = rxd := by
  simp [rxView]

/-- The TX channel has a match at the next tick. -/
def TxMatch (s : State) : Prop := s.txIe = true ∧ addT s.cfg s.cnt 1 = s.txccr

/-- The RX channel has a match at the next tick. -/
def RxMatch (s : State) : Prop := s.rxMode = .compare ∧ addT s.cfg s.cnt 1 = s.rxccr

/-- A tick without a match only counts. -/
theorem bclkTick_tx_noMatch {s : State} (hrun : s.cntRun = true) (h : ¬TxMatch s) :
    txView (bclkTick s) =
      (s.cfg, addT s.cfg s.cnt 1, s.cntRun, s.txccr, s.txsr, s.txbitcnt, s.txIe, s.txd) := by
  have hch : txChannel (countTick s) = countTick s := txChannel_noMatch h
  rw [bclkTick_running hrun, hch]
  simp [txView, countTick]

/-- A tick with a match, before the last bit, puts the next bit on the line (R223). -/
theorem bclkTick_tx_bit {s : State} (hrun : s.cntRun = true) (h : TxMatch s) (hn : s.txbitcnt ≠ 1) :
    txView (bclkTick s) =
      (s.cfg, addT s.cfg s.cnt 1, s.cntRun, addT s.cfg s.txccr s.cfg.bitp, s.txsr >>> 1, s.txbitcnt - 1, true,
        s.txsr.getLsbD 0) := by
  have hch : txChannel (countTick s) = txCompareAction (countTick s) := txChannel_match h
  have hn : ¬s.txbitcnt - 1#4 = 0#4 := mt (bitcnt_last _).mp hn
  rw [bclkTick_running hrun, hch]
  simp [txView, txCompareAction, countTick, hn, h.1]

/-- The last bit's match ends the frame (R223). -/
theorem bclkTick_tx_last {s : State} (hc : s.cfg.ok = true) (hrun : s.cntRun = true) (h : TxMatch s)
    (hn : s.txbitcnt = 1) :
    txView (bclkTick s) =
      (s.cfg, addT s.cfg s.cnt 1, s.cntRun, addT s.cfg s.txccr s.cfg.bitp, s.txsr >>> 1, 10, false,
        s.txsr.getLsbD 0) := by
  have hch : txChannel (countTick s) = txCompareAction (countTick s) := txChannel_match h
  rw [bclkTick_running hrun, hch]
  simp [txView, txCompareAction, countTick, hn, (reload_of_ok hc).1]

theorem bclkTick_rx_noMatch {s : State} (hrun : s.cntRun = true) (h : ¬RxMatch s) :
    rxView (bclkTick s) = rxView s := by
  have hch : rxChannel (countTick s) = countTick s := rxChannel_noMatch h
  rw [bclkTick_running hrun, compareChannelsCommute, rxView_txChannel, hch]
  rfl

/-- A tick with a match, before the last bit, samples the line (R252). -/
theorem bclkTick_rx_bit {s : State} (hrun : s.cntRun = true) (h : RxMatch s) (hn : s.rxbitcnt ≠ 1) :
    rxView (bclkTick s) =
      (addT s.cfg s.rxccr s.cfg.bitp, (rxSample s).rxsr, s.rxbitcnt - 1, .compare, s.rxbuf, s.rxavail, s.rxd) := by
  have hch : rxChannel (countTick s) = rxCompareAction (countTick s) := rxChannel_match h
  have hn : ¬s.rxbitcnt - 1#4 = 0#4 := mt (bitcnt_last _).mp hn
  rw [bclkTick_running hrun, compareChannelsCommute, rxView_txChannel, hch, rxCompareAction_eq]
  simp [rxView, countTick, rxSample, hn, h.1]

/-- The last bit's match publishes the byte (R253). -/
theorem bclkTick_rx_last {s : State} (hc : s.cfg.ok = true) (hrun : s.cntRun = true) (h : RxMatch s)
    (hn : s.rxbitcnt = 1) :
    rxView (bclkTick s) =
      (addT s.cfg s.rxccr s.cfg.bitp, (rxSample s).rxsr, 8, .capture, (rxSample s).rxsr, true, s.rxd) := by
  have hch : rxChannel (countTick s) = rxCompareAction (countTick s) := rxChannel_match h
  rw [bclkTick_running hrun, compareChannelsCommute, rxView_txChannel, hch, rxCompareAction_eq]
  simp [rxView, countTick, rxSample, hn, (reload_of_ok hc).2]

end Sys2Proof.Machine

/-! The invariant of 10_state.md R59, at reset and through every step. -/

namespace Sys2Proof.Machine

/-- Settles O40: at reset every counter is 0 or a draw within its width, both channels are idle and the latch is LOCKED
with no flag and no indicator. -/
theorem invariantHoldsAtReset : Obligations.InvariantHoldsAtReset := by
  intro c l prog ts n hc
  obtain ⟨htx, hrx⟩ := reload_of_ok hc
  have hw : 0 < 2 ^ c.tmrW := Nat.two_pow_pos _
  simp [Inv, WidthInv, TopologyInv, TxIdleInv, TxBusyInv, RxInv, LatchInv, TargetInv, State.launch, hc, htx, hrx,
    Nat.mod_lt _ hw]

/-! ### Steps that leave the UART alone -/

/-- Two states with one UART: the same parameters, transmitter and receiver timing, and under SPLIT the same time base. -/
structure SameUart (s s' : State) : Prop where
  cfg : s'.cfg = s.cfg
  base : s.cfg.topology = .split → s'.cnt = s.cnt ∧ s'.cntRun = s.cntRun
  tx : s'.txccr = s.txccr ∧ s'.txsr = s.txsr ∧ s'.txbitcnt = s.txbitcnt ∧ s'.txIe = s.txIe ∧ s'.txd = s.txd
  rx : s'.rxccr = s.rxccr ∧ s'.rxbitcnt = s.rxbitcnt ∧ s'.rxMode = s.rxMode

/-- A step that leaves the UART alone keeps the invariant if it keeps the widths and the latch. -/
theorem SameUart.keeps_inv {s s' : State} (hu : SameUart s s') (h : Inv s) (hw : WidthInv s') (hl : LatchInv s') :
    Inv s' := by
  obtain ⟨hcfg, hbase, ⟨htxccr, htxsr, htxbitcnt, htxIe, htxd⟩, hrxccr, hrxbitcnt, hrxMode⟩ := hu
  obtain ⟨hc, -, ht, hti, htb, hrx, -, htg⟩ := h
  refine ⟨by rwa [hcfg], hw, fun hs => ?_, ?_, ?_, ?_, hl, fun hs => ?_⟩
  · rw [hcfg] at hs
    rw [(hbase hs).2, ht hs]
  · rwa [TxIdleInv, htxIe, htxbitcnt, htxd]
  · rwa [TxBusyInv, htxIe, htxbitcnt, htxsr]
  · rwa [RxInv, hrxMode, hrxbitcnt]
  · rw [hcfg] at hs
    have htg := htg hs
    simp only [ticksTo, hcfg, (hbase hs).1, htxIe, htxccr, hrxMode, hrxccr] at htg ⊢
    exact htg

/-- Starting the stopwatch leaves the UART alone, but for the time base it shares under SHARED (R153). -/
theorem swStart_sameUart (s : State) : SameUart s (swStart s) :=
  ⟨by simp, fun h => by simp [swStart_split h], by simp, by simp⟩

theorem swStop_sameUart (s : State) : SameUart s (swStop s) :=
  ⟨by simp, fun h => by simp [swStop_split h], by simp, by simp⟩

/-- Starting the stopwatch keeps both counters within their width. -/
theorem swStart_counters_lt {s : State} (h : WidthInv s) :
    (swStart s).cnt < 2 ^ (swStart s).cfg.tmrW ∧ (swStart s).swcnt < 2 ^ (swStart s).cfg.tmrW := by
  obtain ⟨hcnt, hsw, -⟩ := h
  have hw : 0 < 2 ^ s.cfg.tmrW := Nat.two_pow_pos _
  cases ht : s.cfg.topology with
  | split => simpa [swStart_split ht, hw] using hcnt
  | shared => simpa [swStart_shared ht, hw] using hsw

theorem swclkTick_keeps_inv {s : State} (h : Inv s) : Inv (swclkTick s) := by
  have ⟨_, ⟨hcnt, hsw, htx, hrx, hel, hresp⟩, _, _, _, _, hl, _⟩ := h
  refine SameUart.keeps_inv (s := s) ⟨by simp, by simp, by simp, by simp⟩ h ?_ (by simpa [LatchInv] using hl)
  refine ⟨by simpa, ?_, by simpa, by simpa, by simpa, by simpa⟩
  cases hrun : s.swRun with
  | true => rw [swclkTick_running hrun]; exact addT_lt _ _ _
  | false => rwa [swclkTick_stopped hrun]

/-- START's flag is no colour's (R56). -/
theorem colourFlags_or_start {x : BitVec 5} (h : x &&& 0b11110 = 0) : (x ||| buttonBit .start) &&& 0b11110 = 0 := by
  revert x; decide

/-- While LOCKED a press adds no colour flag (R180, R181). -/
theorem press_colourFlags {b : Button} {s : State} (hl : s.lstate = .locked) (h : s.ifg &&& 0b11110 = 0) :
    (press b s).ifg &&& 0b11110 = 0 := by
  cases b with
  | start => exact colourFlags_or_start h
  | _ => simpa [press, inputEnabled, hl] using h

theorem press_keeps_inv {s : State} (b : Button) (h : Inv s) : Inv (press b s) := by
  have ⟨_, hw, _, _, _, _, ⟨hifg, hl⟩, _⟩ := h
  exact SameUart.keeps_inv (s := s) ⟨by simp, by simp, by simp, by simp⟩ h (by simpa [WidthInv] using hw)
    ⟨fun hl => press_colourFlags (by simpa using hl) (hifg (by simpa using hl)), by simpa using hl⟩

theorem release_keeps_inv {s : State} (b : Button) (h : Inv s) : Inv (release b s) := by
  have ⟨_, hw, _, _, _, _, hl, _⟩ := h
  exact SameUart.keeps_inv (s := s) ⟨by simp, by simp, by simp, by simp⟩ h (by simpa [WidthInv] using hw)
    (by simpa [LatchInv] using hl)

/-- A colour that can win is pending, so the latch is ARMED and no indicator is lit (R180, R59(g)). -/
theorem LatchInv.ind_of_colour_winner {s : State} {b : Button} (h : LatchInv s) (hb : b ≠ .start)
    (hw : winner s = some b) : s.ind = 0 := by
  obtain ⟨hlocked, harmed, -⟩ := h
  cases hl : s.lstate with
  | armed => exact harmed hl
  | locked =>
    have hflag : s.ifg.getLsbD (buttonIndex b) = true := winner_flag hw
    have hmask : (s.ifg &&& 0b11110).getLsbD (buttonIndex b) = false := by rw [hlocked hl]; exact BitVec.getLsbD_zero
    cases b with
    | start => exact absurd rfl hb
    | _ => simp [buttonIndex] at hflag hmask; simp [hflag] at hmask

theorem acceptStart_keeps_inv {s : State} (h : Inv s) : Inv (acceptStart s) := by
  have ⟨_, hw, _⟩ := h
  have ⟨hcnt, hsw⟩ := swStart_counters_lt hw
  have ⟨_, _, htx, hrx, _, hresp⟩ := hw
  refine SameUart.keeps_inv (s := s) ⟨by simp, (swStart_sameUart s).base, by simp, by simp⟩ h ?_ (by simp [LatchInv])
  exact ⟨hcnt, hsw, by simpa, by simpa, by simpa using swValue_lt hw, by simpa⟩

theorem acceptColour_keeps_inv {s : State} {b : Button} (h : Inv s) (hb : b ≠ .start) (hwin : winner s = some b) :
    Inv (acceptColour b s) := by
  have ⟨_, hw, _, _, _, _, hl, _⟩ := h
  have ⟨hcnt, hsw, htx, hrx, _, hresp⟩ := hw
  refine SameUart.keeps_inv (s := s) ⟨by simp, (swStop_sameUart s).base, by simp, by simp⟩ h ?_ ?_
  · exact ⟨by simpa, by simpa, by simpa, by simpa, by simpa using swValue_lt hw, by simpa⟩
  · cases b with
    | start => exact absurd rfl hb
    | _ => simp [LatchInv, hl.ind_of_colour_winner hb hwin, indicatorBit, idOfButton]

theorem arbitrate_keeps_inv {s : State} (h : Inv s) : Inv (arbitrate s) := by
  obtain ⟨-, ha⟩ | ⟨-, -, ha⟩ | ⟨-, -, ha⟩ | ⟨b, hb, hwin, -, ha⟩ := arbitrate_cases s
  · rwa [ha]
  · have ⟨_, hw, _, _, _, _, ⟨_, hl⟩, _⟩ := h
    rw [ha]
    exact SameUart.keeps_inv (s := s) ⟨rfl, fun _ => ⟨rfl, rfl⟩, by simp, by simp⟩ h hw ⟨by simp, hl⟩
  · rw [ha]; exact acceptStart_keeps_inv h
  · rw [ha]; exact acceptColour_keeps_inv h hb hwin

/-! ### The steps of the UART -/

/-- A tick that reaches a target moves it one bit period on (R150). -/
theorem ticksTo_bclkTick_match {s : State} {tgt : Nat} (hc : s.cfg.ok = true) (hrun : s.cntRun = true)
    (hm : addT s.cfg s.cnt 1 = tgt) : ticksTo (bclkTick s) (addT s.cfg tgt s.cfg.bitp) = s.cfg.bitp := by
  obtain ⟨-, -, -, -, -, hspan, -⟩ := (config_ok_iff _).mp hc
  have hcnt : (bclkTick s).cnt = tgt := by rw [bclkTick_cnt, if_pos hrun, hm]
  have ht : tgt < 2 ^ s.cfg.tmrW := hm ▸ addT_lt _ _ _
  rw [ticksTo, (bclkTick_frame s).1, hcnt]
  exact ahead_set ht (by omega)

/-- A tick that does not reach a target ahead brings it one nearer (R159). -/
theorem ticksTo_bclkTick_noMatch {s : State} {tgt : Nat} (hrun : s.cntRun = true) (hcnt : s.cnt < 2 ^ s.cfg.tmrW)
    (ht : tgt < 2 ^ s.cfg.tmrW) (hm : addT s.cfg s.cnt 1 ≠ tgt) (h1 : 1 ≤ ticksTo s tgt) :
    ticksTo (bclkTick s) tgt = ticksTo s tgt - 1 ∧ 1 ≤ ticksTo (bclkTick s) tgt := by
  have hc' : addT s.cfg s.cnt 1 < 2 ^ s.cfg.tmrW := addT_lt _ _ _
  rw [ticksTo, (bclkTick_frame s).1, bclkTick_cnt, if_pos hrun]
  refine ⟨ahead_count (by omega) hcnt ht hm h1, ?_⟩
  rw [ahead_eq hc' ht]
  split_ifs <;> omega

/-- A capture's target is one and a half bit periods ahead (R251). -/
theorem startEdge_ahead {s : State} (hc : s.cfg.ok = true) (hw : s.cnt < 2 ^ s.cfg.tmrW) :
    ((s.cnt + s.cfg.bitp + s.cfg.halfp) % 2 ^ s.cfg.tmrW + 2 ^ s.cfg.tmrW - s.cnt) % 2 ^ s.cfg.tmrW =
      s.cfg.bitp + s.cfg.halfp := by
  obtain ⟨-, -, -, -, hspan, -⟩ := (config_ok_iff _).mp hc
  rw [Nat.add_assoc, ahead_set hw hspan]

theorem rxdSet_keeps_inv {s : State} (v : Bool) (h : Inv s) : Inv (rxdSet v s) := by
  have ⟨hc, hw, ht, hti, htb, hrx, hl, htg⟩ := h
  by_cases hedge : s.rxd = true ∧ v = false ∧ s.rxMode = .capture
  · have ⟨hcnt, hsw, htx, _, hrest⟩ := hw
    obtain ⟨-, hbitp, hhalfp, -⟩ := (config_ok_iff _).mp hc
    rw [rxdSet_startEdge hedge]
    refine ⟨hc, ⟨hcnt, hsw, htx, Nat.mod_lt _ (Nat.two_pow_pos _), hrest⟩, ht, hti, htb, ⟨by simp, hrx.2⟩, hl,
      fun hs => ⟨(htg hs).1, fun _ => ?_⟩⟩
    have hahead := startEdge_ahead hc hcnt
    simp only [ticksTo] at hahead ⊢
    omega
  · rw [rxdSet_noCapture hedge]
    exact h

/-- A busy transmitter's last bit is the stop bit (R59(b)). -/
theorem stopBit_of_last {x : BitVec 10} (hlt : x.toNat < 2 ^ 1) (hle : 2 ^ 0 ≤ x.toNat) : x.getLsbD 0 = true := by
  obtain rfl : x = 1 := BitVec.eq_of_toNat_eq (by simp; omega)
  rfl

/-- A running tick keeps the transmitter's part of the invariant (R223). -/
theorem bclkTick_keeps_tx {s : State} (h : Inv s) (hrun : s.cntRun = true) :
    (bclkTick s).txccr < 2 ^ s.cfg.tmrW ∧ TxIdleInv (bclkTick s) ∧ TxBusyInv (bclkTick s) ∧
      (s.cfg.topology = .split → (bclkTick s).txIe = true →
        1 ≤ ticksTo (bclkTick s) (bclkTick s).txccr ∧ ticksTo (bclkTick s) (bclkTick s).txccr ≤ s.cfg.bitp) := by
  obtain ⟨hc, ⟨hcnt, -, htx, -⟩, -, hidle, hbusy, -, -, htg⟩ := h
  obtain ⟨-, hb, -, -, -, hspan, -⟩ := (config_ok_iff _).mp hc
  by_cases hm : TxMatch s
  · obtain ⟨h1, h10, hlt, hle⟩ := hbusy hm.1
    by_cases hn : s.txbitcnt = 1
    · obtain ⟨-, -, -, hccr, -, hbit, hie, hd⟩ := txView_eq_iff.mp (bclkTick_tx_last hc hrun hm hn)
      rw [hn] at hlt hle
      simp [TxIdleInv, TxBusyInv, hccr, hbit, hie, hd, addT_lt, stopBit_of_last hlt hle]
    · obtain ⟨hcfg, hcnt', -, hccr, hsr, hbit, hie, -⟩ := txView_eq_iff.mp (bclkTick_tx_bit hrun hm hn)
      have hn : s.txbitcnt.toNat ≠ 1 := fun h => hn (BitVec.eq_of_toNat_eq h)
      refine ⟨hccr ▸ addT_lt _ _ _, by simp [TxIdleInv, hie], fun _ => ?_, fun hs _ => ?_⟩
      · rw [hbit, hsr, txsr_shift, bitcnt_pred _ h1]
        obtain ⟨n, hn'⟩ : ∃ n, s.txbitcnt.toNat = n + 2 := ⟨s.txbitcnt.toNat - 2, by omega⟩
        rw [hn'] at hlt hle ⊢
        simp only [Nat.add_sub_cancel, Nat.pow_succ, show n + 2 - 1 = n + 1 by omega] at hlt hle ⊢
        omega
      · rw [hccr, ticksTo_bclkTick_match hc hrun hm.2]
        omega
  · obtain ⟨hcfg, hcnt', -, hccr, hsr, hbit, hie, hd⟩ := txView_eq_iff.mp (bclkTick_tx_noMatch hrun hm)
    refine ⟨hccr ▸ htx, by rwa [TxIdleInv, hie, hbit, hd], by rwa [TxBusyInv, hie, hbit, hsr], fun hs hie' => ?_⟩
    rw [hie] at hie'
    obtain ⟨h1, hle⟩ := (htg hs).1 hie'
    rw [hccr]
    have hnear := ticksTo_bclkTick_noMatch hrun hcnt htx (fun h => hm ⟨hie', h⟩) h1
    omega

/-- A running tick keeps the receiver's part of the invariant (R252, R253). -/
theorem bclkTick_keeps_rx {s : State} (h : Inv s) (hrun : s.cntRun = true) :
    (bclkTick s).rxccr < 2 ^ s.cfg.tmrW ∧ RxInv (bclkTick s) ∧
      (s.cfg.topology = .split → (bclkTick s).rxMode = .compare →
        1 ≤ ticksTo (bclkTick s) (bclkTick s).rxccr ∧
          ticksTo (bclkTick s) (bclkTick s).rxccr ≤ s.cfg.bitp + s.cfg.halfp) := by
  obtain ⟨hc, ⟨hcnt, -, -, hrx, -⟩, -, -, -, ⟨hcap, h1, h8⟩, -, htg⟩ := h
  obtain ⟨-, hb, -⟩ := (config_ok_iff _).mp hc
  by_cases hm : RxMatch s
  · by_cases hn : s.rxbitcnt = 1
    · obtain ⟨hccr, -, hbit, hmode, -⟩ := rxView_eq_iff.mp (bclkTick_rx_last hc hrun hm hn)
      simp [RxInv, hccr, hbit, hmode, addT_lt]
    · obtain ⟨hccr, -, hbit, hmode, -⟩ := rxView_eq_iff.mp (bclkTick_rx_bit hrun hm hn)
      have hn : s.rxbitcnt.toNat ≠ 1 := fun h => hn (BitVec.eq_of_toNat_eq h)
      refine ⟨hccr ▸ addT_lt _ _ _, ⟨by simp [hmode], ?_⟩, fun hs _ => ?_⟩
      · rw [hbit, bitcnt_pred _ h1]
        omega
      · rw [hccr, ticksTo_bclkTick_match hc hrun hm.2]
        omega
  · obtain ⟨hccr, -, hbit, hmode, -⟩ := rxView_eq_iff.mp (bclkTick_rx_noMatch hrun hm)
    refine ⟨hccr ▸ hrx, by rw [RxInv, hmode, hbit]; exact ⟨hcap, h1, h8⟩, fun hs hmode' => ?_⟩
    rw [hmode] at hmode'
    obtain ⟨h1, hle⟩ := (htg hs).2 hmode'
    rw [hccr]
    have hnear := ticksTo_bclkTick_noMatch hrun hcnt hrx (fun h => hm ⟨hmode', h⟩) h1
    omega

theorem bclkTick_keeps_inv {s : State} (h : Inv s) : Inv (bclkTick s) := by
  cases hrun : s.cntRun with
  | false => rwa [bclkTick_stopped hrun]
  | true =>
    obtain ⟨htx, hidle, hbusy, htxAhead⟩ := bclkTick_keeps_tx h hrun
    obtain ⟨hrx, hrxInv, hrxAhead⟩ := bclkTick_keeps_rx h hrun
    obtain ⟨hc, ⟨-, hsw, -, -, hel, hresp⟩, -, -, -, -, hl, -⟩ := h
    have hcnt : (bclkTick s).cnt < 2 ^ s.cfg.tmrW := by rw [bclkTick_cnt, if_pos hrun]; exact addT_lt _ _ _
    refine ⟨by simpa, ⟨by simpa, by simpa, by simpa, by simpa, by simpa, by simpa⟩, ?_, hidle, hbusy, hrxInv,
      by simpa [LatchInv] using hl, ?_⟩
    · simp [TopologyInv, hrun]
    · simpa [TargetInv] using fun hs => ⟨htxAhead hs, hrxAhead hs⟩

/-! ### Commands -/

/-- The data a command returns fits into a response word (R105). -/
theorem commandResponse_lt (i : Instr) {s : State} (h : WidthInv s) : commandResponse i s < 2 ^ s.cfg.respW := by
  obtain ⟨hroom, hwide⟩ := respW_room s.cfg
  have hsw := swValue_lt h
  obtain ⟨hcnt, -, -, -, hel, -⟩ := h
  have hpos : 0 < 2 ^ s.cfg.respW := Nat.two_pow_pos _
  cases i with
  | tnow => exact hcnt.trans_le hwide
  | tread => exact hsw.trans_le hwide
  | lelap => exact hel.trans_le hwide
  | fltrd => exact (fltrdWord s).isLt.trans_le hroom
  | ustat => exact (ustatWord s).isLt.trans_le hroom
  | lpoll => exact (lpollWord s).isLt.trans_le hroom
  | recv => exact (s.rxbuf.isLt.trans (by decide)).trans_le hroom
  | _ => exact hpos

/-- Completing a command keeps the invariant if the response fits. -/
theorem respond_keeps_inv {v : Nat} {s : State} (h : Inv s) (hv : v < 2 ^ s.cfg.respW) : Inv (respond v s) := by
  obtain ⟨hc, ⟨hcnt, hsw, htx, hrx, hel, -⟩, hrest⟩ := h
  exact ⟨hc, ⟨hcnt, hsw, htx, hrx, hel, hv⟩, hrest⟩

theorem hold_keeps_inv {s : State} (h : Inv s) : Inv (hold s) := by
  obtain ⟨hc, ⟨hcnt, hsw, htx, hrx, hel, -⟩, hrest⟩ := h
  exact ⟨hc, ⟨hcnt, hsw, htx, hrx, hel, Nat.two_pow_pos _⟩, hrest⟩

/-- An idle transmitter takes a frame, with its first target one bit period ahead (R221). -/
theorem loadFrame_keeps_inv {s : State} (b : Byte) (h : Inv s) (hie : s.txIe = false) : Inv (loadFrame b s) := by
  obtain ⟨hc, ⟨hcnt, hsw, -, hrest⟩, ht, hidle, -, hrx, hl, htg⟩ := h
  obtain ⟨-, hb, -, -, -, hspan, -⟩ := (config_ok_iff _).mp hc
  obtain ⟨hlo, hhi⟩ := frame_bounds b
  have hbit : s.txbitcnt = 10 := (hidle hie).1
  refine ⟨hc, ⟨hcnt, hsw, addT_lt _ _ _, hrest⟩, ht, by simp [TxIdleInv], fun _ => ?_, hrx, hl,
    fun hs => ⟨fun _ => ?_, (htg hs).2⟩⟩
  · simp [hbit]
    omega
  · have hahead : ticksTo (loadFrame b s) (loadFrame b s).txccr = s.cfg.bitp := ahead_set hcnt (by omega)
    rw [hahead, (loadFrame_frame b s).1]
    omega

theorem swStart_keeps_inv {s : State} (h : Inv s) : Inv (swStart s) := by
  have ⟨_, hw, _, _, _, _, hl, _⟩ := h
  obtain ⟨hcnt, hsw⟩ := swStart_counters_lt hw
  obtain ⟨-, -, hrest⟩ := hw
  exact (swStart_sameUart s).keeps_inv h ⟨hcnt, hsw, by simpa using hrest⟩ (by simpa [LatchInv] using hl)

theorem swStop_keeps_inv {s : State} (h : Inv s) : Inv (swStop s) := by
  have ⟨_, hw, _, _, _, _, hl, _⟩ := h
  exact (swStop_sameUart s).keeps_inv h (by simpa [WidthInv] using hw) (by simpa [LatchInv] using hl)

theorem commandEffect_keeps_inv {i : Instr} {s : State} (h : Inv s) (hh : isHeld i s = false) :
    Inv (commandEffect i s) := by
  cases i with
  | tstart => exact swStart_keeps_inv h
  | tstop => exact swStop_keeps_inv h
  | send b => exact loadFrame_keeps_inv b h hh
  | lzero =>
    obtain ⟨hc, ⟨hcnt, hsw, htx, hrx, -, hresp⟩, hrest⟩ := h
    exact ⟨hc, ⟨hcnt, hsw, htx, hrx, Nat.two_pow_pos _, hresp⟩, hrest⟩
  | lack =>
    obtain ⟨hc, hw, ht, hti, htb, hrx, ⟨hifg, harm, hind, -⟩, htg⟩ := h
    exact ⟨hc, hw, ht, hti, htb, hrx, ⟨hifg, harm, hind, by simp [commandEffect]⟩, htg⟩
  | lclrf =>
    obtain ⟨hc, hw, ht, hti, htb, hrx, ⟨-, hl⟩, htg⟩ := h
    exact ⟨hc, hw, ht, hti, htb, hrx, ⟨by simp [commandEffect], hl⟩, htg⟩
  | iclr =>
    obtain ⟨hc, hw, ht, hti, htb, hrx, ⟨hifg, -, -, hsem⟩, htg⟩ := h
    exact ⟨hc, hw, ht, hti, htb, hrx, ⟨hifg, by simp [commandEffect], by simp [commandEffect], hsem⟩, htg⟩
  | _ => exact h

/-! ### Every step -/

theorem runEvent_keeps_inv {s : State} (e : Event) (h : Inv s) : Inv (runEvent e s) := by
  obtain ⟨-, hr⟩ | ⟨-, hr⟩ := runEvent_cases e s
  · rw [hr]
    cases e with
    | bclkTick => exact bclkTick_keeps_inv h
    | swclkTick => exact swclkTick_keeps_inv h
    | rxdSet v => exact rxdSet_keeps_inv v h
    | press b => exact press_keeps_inv b h
    | release b => exact release_keeps_inv b h
    | arbitrate => exact arbitrate_keeps_inv h
  · rwa [hr]

/-- Whatever a turn does keeps the invariant. -/
theorem TurnEffect.keeps_inv {s s' : State} {t : Turn} (h : TurnEffect s t s') (hi : Inv s) : Inv s' := by
  cases h with
  | reset l => exact invariantHoldsAtReset s.cfg l s.program s.turns s.turnNo hi.1
  | event e => exact runEvent_keeps_inv e hi
  | idle _ => exact hi
  | illegal _ _ _ _ => exact respond_keeps_inv hi (Nat.two_pow_pos _)
  | held _ _ _ _ _ _ => exact hold_keeps_inv hi
  | command _ _ i _ _ hb =>
    refine respond_keeps_inv (commandEffect_keeps_inv hi hb) ?_
    rw [(commandEffect_frame i s).1]
    exact commandResponse_lt i hi.2.1

/-- Taking a turn moves no element of the block. -/
theorem takeTurn_keeps_inv {s : State} (h : Inv s) : Inv (takeTurn s) := by
  unfold takeTurn
  split
  · exact h
  · exact h

/-- Settles O41: the turn is taken, and every effect of a turn keeps the invariant. -/
theorem stepKeepsInvariant : Obligations.StepKeepsInvariant := by
  intro s t hi hstep
  obtain ⟨-, -, heff⟩ := step_next hstep
  exact heff.keeps_inv (takeTurn_keeps_inv hi)

end Sys2Proof.Machine

/-! What single events and commands leave unchanged, unit by unit, and what follows for every step
(10_state.md, 20_memory.md R89, 43_uart_tx.md, 70_reset_and_hazards.md R354). -/

namespace Sys2Proof.Machine

/-! ### Events and commands, unit by unit -/

/-- No event but the arbiter's writes the mailbox or the latch state. -/
theorem runEvent_latch {e : Event} (he : e ≠ .arbitrate) (s : State) :
    (runEvent e s).sem = s.sem ∧ (runEvent e s).buttonId = s.buttonId ∧ (runEvent e s).elapsed = s.elapsed ∧
      (runEvent e s).lstate = s.lstate := by
  obtain ⟨-, h⟩ | ⟨-, h⟩ := runEvent_cases e s
  · rw [h]
    cases e with
    | arbitrate => exact absurd rfl he
    | _ => simp [eventEffect]
  · simp [h]

/-- An arbiter's turn is an arbiter step, which changes nothing where no flag is set. -/
theorem runEvent_arbitrate (s : State) : runEvent .arbitrate s = arbitrate s := by
  obtain ⟨-, h⟩ | ⟨hen, h⟩ := runEvent_cases .arbitrate s
  · exact h
  · have hnone : winner s = none := (winner_eq_none_iff s).mpr (by simpa [eventEnabled] using hen)
    rw [h, arbitrate, hnone]

/-- While SEM = 1 no event writes the mailbox (R89, R185). -/
theorem runEvent_mailbox_of_pending (e : Event) {s : State} (hs : s.sem = true) :
    mailbox (runEvent e s) = mailbox s := by
  by_cases he : e = .arbitrate
  · obtain ⟨-, ha⟩ | ⟨-, -, ha⟩ | ⟨-, hs', -⟩ | ⟨-, -, -, hs', -⟩ := arbitrate_cases s
    · rw [he, runEvent_arbitrate, ha]
    · rw [he, runEvent_arbitrate, ha]
    · simp [hs] at hs'
    · simp [hs] at hs'
  · obtain ⟨hsem, hid, hel, -⟩ := runEvent_latch he s
    rw [mailbox, hsem, hid, hel]

/-- No event but a bit-clock tick writes the transmitter. -/
theorem runEvent_tx {e : Event} (he : e ≠ .bclkTick) (s : State) :
    (runEvent e s).txccr = s.txccr ∧ (runEvent e s).txsr = s.txsr ∧ (runEvent e s).txbitcnt = s.txbitcnt ∧
      (runEvent e s).txIe = s.txIe ∧ (runEvent e s).txd = s.txd := by
  obtain ⟨-, h⟩ | ⟨-, h⟩ := runEvent_cases e s
  · rw [h]
    cases e with
    | bclkTick => exact absurd rfl he
    | _ => simp [eventEffect]
  · simp [h]

/-- Under SPLIT, and under either topology while the arbiter discards, no event but a bit-clock tick moves the time base. -/
theorem runEvent_timeBase {e : Event} {s : State} (he : e ≠ .bclkTick)
    (h : s.cfg.topology = .split ∨ s.sem = true) :
    (runEvent e s).cnt = s.cnt ∧ (runEvent e s).cntRun = s.cntRun := by
  cases e with
  | bclkTick => exact absurd rfl he
  | arbitrate =>
    rw [runEvent_arbitrate]
    obtain ⟨-, ha⟩ | ⟨-, -, ha⟩ | ⟨-, hs, ha⟩ | ⟨b, -, -, hs, ha⟩ := arbitrate_cases s
    · simp [ha]
    · simp [ha]
    · have ht : s.cfg.topology = .split := h.resolve_right (by simp [hs])
      simp [ha, acceptStart_split ht]
    · have ht : s.cfg.topology = .split := h.resolve_right (by simp [hs])
      simp [ha, acceptColour_split b ht]
  | _ => unfold runEvent; split <;> simp [eventEffect]

/-- So no other event is visible in the time base and the transmitter. -/
theorem runEvent_txView {e : Event} {s : State} (he : e ≠ .bclkTick) (h : s.cfg.topology = .split ∨ s.sem = true) :
    txView (runEvent e s) = txView s := by
  obtain ⟨hcnt, hrun⟩ := runEvent_timeBase he h
  obtain ⟨hccr, hsr, hbit, hie, hd⟩ := runEvent_tx he s
  exact txView_eq_iff.mpr ⟨(runEvent_frame e s).1, hcnt, hrun, hccr, hsr, hbit, hie, hd⟩

/-- Under SPLIT no command moves the time base. -/
theorem commandEffect_timeBase (i : Instr) {s : State} (h : s.cfg.topology = .split) :
    (commandEffect i s).cnt = s.cnt ∧ (commandEffect i s).cntRun = s.cntRun := by
  cases i <;> simp [commandEffect, swStart_split, swStop_split, h]

/-- Under SPLIT no command but SEND is visible in the time base and the transmitter. -/
theorem commandEffect_txView {i : Instr} {s : State} (hi : ∀ b, i ≠ .send b) (h : s.cfg.topology = .split) :
    txView (commandEffect i s) = txView s := by
  cases i with
  | send b => exact absurd rfl (hi b)
  | _ => simp [txView, commandEffect, swStart_split, swStop_split, h]

/-- Only LACK clears SEM. -/
theorem commandEffect_sem {i : Instr} (hi : i ≠ .lack) (s : State) : (commandEffect i s).sem = s.sem := by
  cases i with
  | lack => exact absurd rfl hi
  | _ => simp [commandEffect]

/-- Only LZERO writes ELAPSED. -/
theorem commandEffect_elapsed {i : Instr} (hi : i ≠ .lzero) (s : State) : (commandEffect i s).elapsed = s.elapsed := by
  cases i with
  | lzero => exact absurd rfl hi
  | _ => simp [commandEffect]

/-- A busy transmitter's frame ends only by a match of a running tick (R223). -/
theorem TxMatch.of_bclkTick_txd_or_txIe {s : State} (h : (bclkTick s).txd ≠ s.txd ∨ (bclkTick s).txIe ≠ s.txIe) :
    s.cntRun = true ∧ TxMatch s := by
  cases hrun : s.cntRun with
  | false => simp [bclkTick_stopped hrun] at h
  | true =>
    refine ⟨rfl, Classical.byContradiction fun hm => ?_⟩
    obtain ⟨-, -, -, -, -, -, hie, hd⟩ := txView_eq_iff.mp (bclkTick_tx_noMatch hrun hm)
    simp [hie, hd] at h

/-- Every match shifts the frame: it moves the target on and puts the lowest bit of the shift register on the line (R223). -/
theorem bclkTick_tx_shift {s : State} (hc : s.cfg.ok = true) (hrun : s.cntRun = true) (hm : TxMatch s) :
    (bclkTick s).txccr = addT s.cfg s.txccr s.cfg.bitp ∧ (bclkTick s).txsr = s.txsr >>> 1 ∧
      (bclkTick s).txd = s.txsr.getLsbD 0 := by
  by_cases hn : s.txbitcnt = 1
  · obtain ⟨-, -, -, hccr, hsr, -, -, hd⟩ := txView_eq_iff.mp (bclkTick_tx_last hc hrun hm hn)
    exact ⟨hccr, hsr, hd⟩
  · obtain ⟨-, -, -, hccr, hsr, -, -, hd⟩ := txView_eq_iff.mp (bclkTick_tx_bit hrun hm hn)
    exact ⟨hccr, hsr, hd⟩

@[simp] theorem blockState_takeTurn (s : State) : blockState (takeTurn s) = blockState s := by
  unfold takeTurn; split <;> rfl

@[simp] theorem txView_takeTurn (s : State) : txView (takeTurn s) = txView s := by simp [txView]

/-! ### What a turn that is no reset can do to FAULT_ILL, the mailbox and the latch state -/

theorem TurnEffect.faultIll_cases {s s' : State} {t : Turn} (h : TurnEffect s t s') (ht : notReset t = true) :
    s'.faultIll = s.faultIll ∨
      (s'.faultIll = true ∧ t = .host ∧ ∃ w ws, s.program = w :: ws ∧ ∀ i, decode w ≠ .ok i) := by
  cases h with
  | reset l => simp [notReset] at ht
  | illegal w ws hp hd => exact .inr ⟨rfl, rfl, w, ws, hp, hd⟩
  | _ => exact .inl (by simp)

/-- Settles O28: a turn that is no reset keeps FAULT_ILL, unless it is HOST's at an illegal word. -/
theorem faultIllIsStickyUntilReset : Obligations.FaultIllIsStickyUntilReset := by
  intro s t hstep hnr
  obtain ⟨-, -, heff⟩ := step_next hstep
  obtain hkeep | ⟨hset, hhost, hword⟩ := heff.faultIll_cases hnr
  · simp only [takeTurn_frame] at hkeep
    exact ⟨fun h => hkeep.trans h, fun h h' => by simp [hkeep, h] at h'⟩
  · exact ⟨fun _ => hset, fun _ _ => ⟨hhost, by simpa using hword⟩⟩

/-- Settles O29, from the frame of a turn. -/
theorem parametersAndHaltedAreFixedInARun : Obligations.ParametersAndHaltedAreFixedInARun := by
  intro s t hstep
  obtain ⟨-, -, heff⟩ := step_next hstep
  simpa using heff.frame

theorem TurnEffect.mailbox_of_pending {s s' : State} {t : Turn} (h : TurnEffect s t s') (hs : s.sem = true)
    (ht : notReset t = true) :
    s'.buttonId = s.buttonId ∧ (s'.sem = false → t = .host ∧ s.program.head? = some 0x3200) ∧
      (s'.elapsed ≠ s.elapsed → t = .host ∧ s.program.head? = some 0x3300) := by
  cases h with
  | reset l => simp [notReset] at ht
  | event e =>
    have hm := runEvent_mailbox_of_pending e hs
    simp only [mailbox, Prod.mk.injEq] at hm
    simp [hm, hs]
  | command w ws i hp hd _ =>
    obtain rfl := eq_encode_of_decode hd
    refine ⟨by simp, fun hsem => ⟨rfl, ?_⟩, fun hel => ⟨rfl, ?_⟩⟩
    · have hi : i = .lack := by
        by_contra hi
        simp [commandEffect_sem hi, hs] at hsem
      simp [hp, hi, encode]
    · have hi : i = .lzero := by
        by_contra hi
        simp [commandEffect_elapsed hi] at hel
      simp [hp, hi, encode]
  | _ => simp [hs]

/-- Settles O42: events leave the mailbox of a pending event alone, and of the commands LACK alone writes SEM and LZERO
alone ELAPSED. -/
theorem pendingMailboxIsStable : Obligations.PendingMailboxIsStable := by
  intro s t hs hstep hnr
  obtain ⟨-, -, heff⟩ := step_next hstep
  simpa using heff.mailbox_of_pending (by simpa using hs) hnr

/-- A turn that changes LSTATE or BUTTON_ID and is no reset is the arbiter's. -/
theorem TurnEffect.arbitrate_or_latch {s s' : State} {t : Turn} (h : TurnEffect s t s') (ht : notReset t = true) :
    (t = .event .arbitrate ∧ s' = arbitrate s) ∨ (s'.lstate = s.lstate ∧ s'.buttonId = s.buttonId) := by
  cases h with
  | reset l => simp [notReset] at ht
  | event e =>
    by_cases he : e = .arbitrate
    · exact .inl ⟨by rw [he], by rw [he, runEvent_arbitrate]⟩
    · obtain ⟨-, hid, -, hl⟩ := runEvent_latch he s
      exact .inr ⟨hl, hid⟩
  | _ => simp

/-- A reset leaves the latch LOCKED, so what arms it is no reset. -/
theorem TurnEffect.notReset_of_armed {s s' : State} {t : Turn} (h : TurnEffect s t s') (hl : s'.lstate = .armed) :
    notReset t = true := by
  cases h with
  | reset l => simp [relaunch, State.launch] at hl
  | _ => rfl

/-- Of the arbiter's cases only the acceptance of START arms (R186). -/
theorem arbitrate_arms {s : State} (hl : s.lstate = .locked) (hl' : (arbitrate s).lstate = .armed) :
    s.sem = false ∧ flagSet .start s = true ∧ (arbitrate s).buttonId = .start := by
  obtain ⟨-, ha⟩ | ⟨-, -, ha⟩ | ⟨hw, hs, ha⟩ | ⟨b, -, -, -, ha⟩ := arbitrate_cases s
  · simp [ha, hl] at hl'
  · simp [ha, hl] at hl'
  · exact ⟨hs, winner_flag hw, by simp [ha]⟩
  · simp [ha] at hl'

/-- Settles O44: only the arbiter writes LSTATE, and it arms only by accepting START. -/
theorem onlyStartAcceptanceArms : Obligations.OnlyStartAcceptanceArms := by
  intro s t hstep hl hl'
  obtain ⟨-, -, heff⟩ := step_next hstep
  obtain ⟨hturn, rfl⟩ | ⟨hsame, -⟩ := heff.arbitrate_or_latch (heff.notReset_of_armed hl')
  · exact ⟨hturn, by simpa [flagSet] using arbitrate_arms (by simpa using hl) hl'⟩
  · simp [hl', hl] at hsame

/-- An arbiter step leaves BUTTON_ID or names the winner there (R186, R187). -/
theorem arbitrate_buttonId {s : State} (h : s.buttonId ≠ .none) : (arbitrate s).buttonId ≠ .none := by
  obtain ⟨-, ha⟩ | ⟨-, -, ha⟩ | ⟨-, -, ha⟩ | ⟨b, -, -, -, ha⟩ := arbitrate_cases s
  · rwa [ha]
  · rwa [ha]
  · simp [ha]
  · rw [ha]
    cases b <;> simp [idOfButton]

/-- Settles O45: only the arbiter writes BUTTON_ID, and it writes a button's code. -/
theorem buttonIdNeverReturnsToNone : Obligations.ButtonIdNeverReturnsToNone := by
  intro s t hstep hnr hid
  obtain ⟨-, -, heff⟩ := step_next hstep
  obtain ⟨-, rfl⟩ | ⟨-, hsame⟩ := heff.arbitrate_or_latch hnr
  · exact arbitrate_buttonId (by simpa using hid)
  · simpa [hsame] using hid

/-! ### What a turn that is no reset can do to the transmitter -/

/-- TXD is written by a match of a running tick only. -/
theorem TurnEffect.txd_changes {s s' : State} {t : Turn} (h : TurnEffect s t s') (hc : s.cfg.ok = true)
    (ht : notReset t = true) (hd : s'.txd ≠ s.txd) :
    t = .event .bclkTick ∧ s.cntRun = true ∧ TxMatch s ∧ s'.txd = s.txsr.getLsbD 0 := by
  cases h with
  | reset l => simp [notReset] at ht
  | event e =>
    by_cases he : e = .bclkTick
    · subst he
      have hd : (bclkTick s).txd ≠ s.txd := hd
      obtain ⟨hrun, hm⟩ := TxMatch.of_bclkTick_txd_or_txIe (.inl hd)
      obtain ⟨-, -, hd⟩ := bclkTick_tx_shift hc hrun hm
      exact ⟨rfl, hrun, hm, hd⟩
    · obtain ⟨-, -, -, -, hsame⟩ := runEvent_tx he s
      exact absurd hsame hd
  | _ => simp at hd

/-- Settles O46: of all turns but a reset only a tick with a TX match writes the line. -/
theorem onlyTxCompareActionDrivesTxd : Obligations.OnlyTxCompareActionDrivesTxd := by
  intro s t hstep hnr hd
  obtain ⟨hc, -, heff⟩ := step_next hstep
  obtain ⟨hturn, hrun, ⟨hie, hcmp⟩, htxd⟩ := heff.txd_changes (by simpa using hc) hnr (by simpa using hd)
  exact ⟨hturn, by simpa using hrun, by simpa using hie, by simpa [addT] using hcmp, by simpa using htxd⟩

/-- Under SPLIT a turn that is no reset and no tick is not visible in the time base and the transmitter, unless it is an
accepted SEND. -/
theorem TurnEffect.txView_split {s s' : State} {t : Turn} (h : TurnEffect s t s') (hs : s.cfg.topology = .split)
    (ht : notReset t = true) (hb : t ≠ .event .bclkTick) :
    txView s' = txView s ∨
      (t = .host ∧ s.txIe = false ∧ ∃ b ws, s.program = encode (.send b) :: ws ∧ s' = respond 0 (loadFrame b s)) := by
  cases h with
  | reset l => simp [notReset] at ht
  | event e => exact .inl (runEvent_txView (fun he => hb (by rw [he])) (.inl hs))
  | command w ws i hp hd hh =>
    obtain rfl := eq_encode_of_decode hd
    by_cases hi : ∃ b, i = .send b
    · obtain ⟨b, rfl⟩ := hi
      exact .inr ⟨rfl, hh, b, ws, hp, rfl⟩
    · have hsame := commandEffect_txView (not_exists.mp hi) hs
      exact .inl (by simpa [txView] using hsame)
  | _ => exact .inl (by simp [txView])

/-- Settles O47: an accepted SEND leaves the time base too. -/
theorem splitKeepsTransmitterFromOtherSteps : Obligations.SplitKeepsTransmitterFromOtherSteps := by
  intro s t hstep hs hnr hb
  obtain ⟨-, -, heff⟩ := step_next hstep
  obtain hsame | ⟨hhost, hie, b, ws, hp, rfl⟩ := heff.txView_split (by simpa using hs) hnr hb
  · rw [txView_takeTurn] at hsame
    obtain ⟨-, hcnt, hrun, -⟩ := txView_eq_iff.mp hsame
    exact ⟨hcnt, hrun, .inl hsame⟩
  · simp only [takeTurn_frame] at hp hie
    exact ⟨by simp, by simp, .inr ⟨hhost, hie, b, ws, hp, by simp [hp]⟩⟩

/-- What a turn that is no reset does while HOST stands at a SEND and a frame is in flight: an event, or the hold (R222). -/
theorem TurnEffect.event_or_hold {s s' : State} {t : Turn} {b : Byte} {ws : List Word} (h : TurnEffect s t s')
    (ht : notReset t = true) (hie : s.txIe = true) (hp : s.program = encode (.send b) :: ws) :
    (∃ e, t = .event e ∧ s' = runEvent e s) ∨ (t = .host ∧ s' = hold s) := by
  cases h with
  | reset l => simp [notReset] at ht
  | event e => exact .inl ⟨e, rfl, rfl⟩
  | held _ _ _ _ _ _ => exact .inr ⟨rfl, rfl⟩
  | idle hp' => simp [hp] at hp'
  | illegal w _ hp' hd =>
    obtain ⟨rfl, -⟩ := List.cons.inj (hp.symm.trans hp')
    exact absurd (decode_encode _) (hd _)
  | command w _ i hp' hd hh =>
    obtain ⟨rfl, -⟩ := List.cons.inj (hp.symm.trans hp')
    obtain rfl : Instr.send b = i := by simpa [decode_encode] using hd
    simp [isHeld, hie] at hh

/-- Settles O50: events do not write HOST's position, and of them a tick with a TX match alone writes TX_IE. -/
theorem onlyBclkTickLiftsSendHold : Obligations.OnlyBclkTickLiftsSendHold := by
  intro s t b ws hie hp hstep hnr
  obtain ⟨-, -, heff⟩ := step_next hstep
  obtain ⟨e, hturn, rfl⟩ | ⟨hturn, rfl⟩ := heff.event_or_hold hnr (by simpa using hie) (by simpa using hp)
  · refine ⟨by simp, by simp [hturn], fun hend => ?_⟩
    by_cases he : e = .bclkTick
    · subst he
      have hend : (bclkTick (takeTurn s)).txIe = false := hend
      have hchg : (bclkTick (takeTurn s)).txIe ≠ (takeTurn s).txIe := by simp [hend, hie]
      obtain ⟨hrun, -, hcmp⟩ := TxMatch.of_bclkTick_txd_or_txIe (.inr hchg)
      exact ⟨hturn, by simpa using hrun, by simpa [addT] using hcmp⟩
    · obtain ⟨-, -, -, hsame, -⟩ := runEvent_tx he (takeTurn s)
      simp [hsame, hie] at hend
  · exact ⟨by simp, fun _ => blockState_takeTurn s, by simp [hie]⟩

/-! ### The SHARED stop (70_reset_and_hazards.md R354) -/

/-- The hang: under SHARED the counter is stopped with a frame in flight, an event pending, and HOST at a SEND. -/
structure SharedHang (s : State) : Prop where
  ready : Ready s
  shared : s.cfg.topology = .shared
  stopped : s.cntRun = false
  busy : s.txIe = true
  pending : s.sem = true
  atSend : ∃ b ws, s.program = encode (.send b) :: ws

/-- In the hang an event moves neither HOST nor the transmitter nor the mailbox. -/
theorem SharedHang.runEvent_same {s : State} (h : SharedHang s) (e : Event) :
    (runEvent e s).program = s.program ∧ txView (runEvent e s) = txView s ∧ mailbox (runEvent e s) = mailbox s := by
  refine ⟨by simp, ?_, runEvent_mailbox_of_pending e h.pending⟩
  by_cases he : e = .bclkTick
  · have htick : runEvent .bclkTick s = s := bclkTick_stopped h.stopped
    rw [he, htick]
  · exact runEvent_txView he (.inr h.pending)

/-- One turn of the hang: it has a next state, and that state has the same HOST, transmitter and mailbox. -/
theorem SharedHang.turn {s : State} {t : Turn} (h : SharedHang s) (ht : notReset t = true) :
    ∃ s', runTurn t s = .next s' ∧ s'.halted = s.halted ∧ s'.program = s.program ∧ txView s' = txView s ∧
      mailbox s' = mailbox s := by
  obtain ⟨s', hs'⟩ := runTurn_ready h.ready ht
  obtain ⟨b, ws, hp⟩ := h.atSend
  obtain ⟨-, -, heff⟩ := runTurn_next hs'
  refine ⟨s', hs', heff.frame.2 ht, ?_⟩
  obtain ⟨e, -, rfl⟩ | ⟨-, rfl⟩ := heff.event_or_hold ht h.busy hp
  · exact h.runEvent_same e
  · exact ⟨rfl, rfl, rfl⟩

/-- A state with the same HOST, transmitter and mailbox is in the hang too. -/
theorem SharedHang.of_same {s s' : State} (h : SharedHang s) (hh : s'.halted = s.halted)
    (hp : s'.program = s.program) (htx : txView s' = txView s) (hm : mailbox s' = mailbox s) : SharedHang s' := by
  obtain ⟨hcfg, -, hrun, -, -, -, hie, -⟩ := txView_eq_iff.mp htx
  have hsem : s'.sem = s.sem := congrArg Prod.fst hm
  obtain ⟨⟨hok, hnh⟩, hsh, hst, hb, hpend, hat⟩ := h
  exact ⟨⟨by rw [hcfg, hok], by rw [hh, hnh]⟩, by rw [hcfg, hsh], by rw [hrun, hst], by rw [hie, hb], by rw [hsem, hpend],
    by rwa [hp]⟩

/-- The hang lasts through any turns but a reset. -/
theorem SharedHang.runTurns {ts : List Turn} {s : State} (h : SharedHang s) (hts : ts.all notReset = true) :
    ∃ t, runTurns ts s = .next t ∧ t.program = s.program ∧ txView t = txView s ∧ mailbox t = mailbox s := by
  induction ts generalizing s with
  | nil => exact ⟨s, rfl, rfl, rfl, rfl⟩
  | cons t ts ih =>
    obtain ⟨ht, hts⟩ : notReset t = true ∧ ts.all notReset = true := by simpa using hts
    obtain ⟨s', hs', hh, hp, htx, hm⟩ := h.turn ht
    obtain ⟨u, hu, hup, hutx, hum⟩ := ih (h.of_same hh hp htx hm) hts
    exact ⟨u, by rw [runTurns_cons _ _ _ _ hs', hu], hup.trans hp, hutx.trans htx, hum.trans hm⟩

/-- Settles O55: the hang persists, by induction on the turns. -/
theorem sharedStopHangsHostForGood : Obligations.SharedStopHangsHostForGood :=
  fun _ b ws _ hready hshared hstop hbusy hpend hp hts =>
    SharedHang.runTurns ⟨hready, hshared, hstop, hbusy, hpend, b, ws, hp⟩ hts

end Sys2Proof.Machine

/-! Under SPLIT the UART is independent of the rest (90_conflicts.md C4). -/

namespace Sys2Proof.Machine

/-- A bit-clock tick reads nothing but the time base and the UART. -/
theorem bclkTick_views {s s' : State} (htx : txView s = txView s') (hrx : rxView s = rxView s') :
    txView (bclkTick s) = txView (bclkTick s') ∧ rxView (bclkTick s) = rxView (bclkTick s') := by
  obtain ⟨hcfg, hcnt, hrun, hccr, hsr, hbit, hie, hd⟩ := txView_eq_iff.mp htx
  obtain ⟨hrccr, hrsr, hrbit, hmode, hbuf, havail, hrxd⟩ := rxView_eq_iff.mp hrx
  cases hr : s'.cntRun with
  | false => rw [bclkTick_stopped hr, bclkTick_stopped (hrun.trans hr)]; exact ⟨htx, hrx⟩
  | true =>
    rw [bclkTick_running hr, bclkTick_running (hrun.trans hr)]
    simp only [rxChannel_eq, txChannel_eq, countTick, txView, rxView, hcfg, hcnt, hrun, hccr, hsr, hbit, hie, hd, hrccr,
      hrsr, hrbit, hmode, hbuf, havail, hrxd, and_self]

/-- An RXD change reads nothing but the time base and the receiver. -/
theorem rxdSet_views {s s' : State} (v : Bool) (htx : txView s = txView s') (hrx : rxView s = rxView s') :
    txView (rxdSet v s) = txView (rxdSet v s') ∧ rxView (rxdSet v s) = rxView (rxdSet v s') := by
  obtain ⟨hcfg, hcnt, -⟩ := txView_eq_iff.mp htx
  obtain ⟨hrccr, hrsr, hrbit, hmode, hbuf, havail, hrxd⟩ := rxView_eq_iff.mp hrx
  refine ⟨by simpa [txView] using htx, ?_⟩
  by_cases hedge : s'.rxd = true ∧ v = false ∧ s'.rxMode = .capture
  · rw [rxdSet_startEdge hedge, rxdSet_startEdge (by rwa [hrxd, hmode])]
    simp only [rxView, hcfg, hcnt, hrsr, hrbit, hbuf, havail]
  · rw [rxdSet_noCapture hedge, rxdSet_noCapture (by rwa [hrxd, hmode])]
    simp only [rxView, hrccr, hrsr, hrbit, hmode, hbuf, havail]

/-- No event but a bit-clock tick and an RXD change writes the receiver. -/
theorem runEvent_rxView {e : Event} (he : e ≠ .bclkTick) (he' : ∀ v, e ≠ .rxdSet v) (s : State) :
    rxView (runEvent e s) = rxView s := by
  obtain ⟨-, h⟩ | ⟨-, h⟩ := runEvent_cases e s
  · rw [h]
    cases e with
    | bclkTick => exact absurd rfl he
    | rxdSet v => exact absurd rfl (he' v)
    | _ => simp [eventEffect]
  · rw [h]

theorem runEvent_views {s s' : State} (e : Event) (hs : s.cfg.topology = .split) (htx : txView s = txView s')
    (hrx : rxView s = rxView s') :
    txView (runEvent e s) = txView (runEvent e s') ∧ rxView (runEvent e s) = rxView (runEvent e s') := by
  have hs' : s'.cfg.topology = .split := by rwa [← (txView_eq_iff.mp htx).1]
  have other (hb : e ≠ .bclkTick) (hv : ∀ v, e ≠ .rxdSet v) :
      txView (runEvent e s) = txView (runEvent e s') ∧ rxView (runEvent e s) = rxView (runEvent e s') :=
    ⟨by rw [runEvent_txView hb (.inl hs), runEvent_txView hb (.inl hs'), htx],
      by rw [runEvent_rxView hb hv, runEvent_rxView hb hv, hrx]⟩
  cases e with
  | bclkTick => exact bclkTick_views htx hrx
  | rxdSet v => exact rxdSet_views v htx hrx
  | _ => exact other (by simp) (by simp)

/-- A command's effect on the UART reads nothing but the time base and the UART. -/
theorem commandEffect_views {s s' : State} (i : Instr) (hs : s.cfg.topology = .split) (htx : txView s = txView s')
    (hrx : rxView s = rxView s') :
    txView (commandEffect i s) = txView (commandEffect i s') ∧
      rxView (commandEffect i s) = rxView (commandEffect i s') := by
  have hs' : s'.cfg.topology = .split := by rwa [← (txView_eq_iff.mp htx).1]
  obtain ⟨hcfg, hcnt, hrun, hccr, hsr, hbit, hie, hd⟩ := txView_eq_iff.mp htx
  obtain ⟨hrccr, hrsr, hrbit, hmode, hbuf, havail, hrxd⟩ := rxView_eq_iff.mp hrx
  cases i with
  | send b =>
    simp [txView, rxView, commandEffect, hcfg, hcnt, hrun, hbit, hd, hrccr, hrsr, hrbit, hmode, hbuf, havail, hrxd]
  | recv => exact ⟨htx, by simp [rxView, commandEffect, hrccr, hrsr, hrbit, hmode, hbuf, hrxd]⟩
  | tstart =>
    simp only [commandEffect, swStart_split hs, swStart_split hs']
    exact ⟨htx, hrx⟩
  | tstop =>
    simp only [commandEffect, swStop_split hs, swStop_split hs']
    exact ⟨htx, hrx⟩
  | _ => exact ⟨htx, hrx⟩

/-- The commands that read the time base or the UART read nothing else. -/
theorem commandResponse_views {s s' : State} {i : Instr} (htx : txView s = txView s') (hrx : rxView s = rxView s')
    (hi : i = .tnow ∨ i = .recv ∨ i = .ustat ∨ (∃ b, i = .send b)) : commandResponse i s = commandResponse i s' := by
  obtain ⟨-, hcnt, -, -, -, hbit, hie, hd⟩ := txView_eq_iff.mp htx
  obtain ⟨-, -, hrbit, hmode, hbuf, havail, hrxd⟩ := rxView_eq_iff.mp hrx
  obtain rfl | rfl | rfl | ⟨b, rfl⟩ := hi
  · exact hcnt
  · simp only [commandResponse, hbuf]
  · simp only [commandResponse, ustatWord, hbit, hie, hd, hrbit, hmode, havail, hrxd]
  · rfl

/-- Settles O48: events, a hold and a command's effect are each functions of the two views, and so are the responses. -/
theorem splitUartIgnoresLatchAndStopwatch : Obligations.SplitUartIgnoresLatchAndStopwatch := by
  refine fun s s' hs htx hrx => ⟨fun e => runEvent_views e hs htx hrx, fun hr hr' i => ?_⟩
  obtain ⟨-, -, -, -, -, -, hie, -⟩ := txView_eq_iff.mp htx
  have hheld : isHeld i s = isHeld i s' := by
    cases i with
    | send b => exact hie
    | _ => rfl
  cases hh : isHeld i s' with
  | true =>
    exact ⟨_, _, exec_holds hr (hheld.trans hh), exec_holds hr' hh, htx, hrx, fun _ => rfl⟩
  | false =>
    obtain ⟨htx', hrx'⟩ := commandEffect_views i hs htx hrx
    exact ⟨_, _, exec_completes hr (hheld.trans hh), exec_completes hr' hh, htx', hrx',
      fun hi => congrArg some (commandResponse_views htx hrx hi)⟩

end Sys2Proof.Machine

/-! The frame on the line: its timeline under any interleaving, and that it ends (43_uart_tx.md R224, 00_scope.md R12). -/

namespace Sys2Proof.Machine

/-- Under SPLIT, with a frame in flight, a turn that is no reset is a tick or is not visible in the transmitter. -/
theorem TurnEffect.tick_or_same {s s' : State} {t : Turn} (h : TurnEffect s t s') (hs : s.cfg.topology = .split)
    (hie : s.txIe = true) (ht : notReset t = true) :
    (t = .event .bclkTick ∧ s' = bclkTick s) ∨ (t ≠ .event .bclkTick ∧ txView s' = txView s) := by
  by_cases hb : t = .event .bclkTick
  · subst hb
    cases h with
    | event e => exact .inl ⟨rfl, rfl⟩
  · obtain hsame | ⟨-, hidle, -⟩ := h.txView_split hs ht hb
    · exact .inr ⟨hb, hsame⟩
    · simp [hie] at hidle

/-- Under SPLIT the bit clock's counter runs (R32). -/
theorem Inv.running {s : State} (h : Inv s) (hs : s.cfg.topology = .split) : s.cntRun = true := by
  obtain ⟨-, -, hrun, -⟩ := h
  exact hrun hs

/-! ### Progress -/

/-- How many running ticks a frame in flight still takes. -/
def txRemaining (s : State) : Nat := (s.txbitcnt.toNat - 1) * s.cfg.bitp + ticksTo s s.txccr

/-- A running tick that does not end the frame brings its end one nearer. -/
theorem txRemaining_bclkTick {s : State} (h : Inv s) (hs : s.cfg.topology = .split) (hie : s.txIe = true)
    (hie' : (bclkTick s).txIe = true) : txRemaining (bclkTick s) < txRemaining s := by
  obtain ⟨hc, ⟨hcnt, -, htx, -⟩, hrun, -, hbusy, -, -, htg⟩ := h
  obtain ⟨h1, -⟩ := hbusy hie
  obtain ⟨hahead, -⟩ := (htg hs).1 hie
  by_cases hm : TxMatch s
  · by_cases hn : s.txbitcnt = 1
    · obtain ⟨-, -, -, -, -, -, hend, -⟩ := txView_eq_iff.mp (bclkTick_tx_last hc (hrun hs) hm hn)
      simp [hend] at hie'
    · obtain ⟨hcfg, -, -, hccr, -, hbit, -, -⟩ := txView_eq_iff.mp (bclkTick_tx_bit (hrun hs) hm hn)
      have hn : s.txbitcnt.toNat ≠ 1 := fun h => hn (BitVec.eq_of_toNat_eq h)
      obtain ⟨n, hn'⟩ : ∃ n, s.txbitcnt.toNat = n + 2 := ⟨s.txbitcnt.toNat - 2, by omega⟩
      rw [txRemaining, txRemaining, hccr, ticksTo_bclkTick_match hc (hrun hs) hm.2, hcfg, hbit, bitcnt_pred _ h1, hn']
      simp only [show n + 2 - 1 = n + 1 by omega, Nat.add_sub_cancel, Nat.succ_mul]
      omega
  · obtain ⟨hcfg, -, -, hccr, -, hbit, -, -⟩ := txView_eq_iff.mp (bclkTick_tx_noMatch (hrun hs) hm)
    have hnear := ticksTo_bclkTick_noMatch (hrun hs) hcnt htx (fun h => hm ⟨hie, h⟩) hahead
    rw [txRemaining, txRemaining, hccr, hcfg, hbit]
    omega

/-- What the transmitter still takes is read off the time base and the transmitter. -/
theorem txRemaining_eq_of_txView {s s' : State} (h : txView s' = txView s) : txRemaining s' = txRemaining s := by
  obtain ⟨hcfg, hcnt, -, hccr, -, hbit, -, -⟩ := txView_eq_iff.mp h
  rw [txRemaining, txRemaining, ticksTo, ticksTo, hcfg, hcnt, hccr, hbit]

section
variable {turn : Nat → Turn} {r : Nat → State}

/-- The invariant and the topology stay along a run that starts with them. -/
theorem IsRun.inv_split (hr : IsRun turn r) (hi : Inv (r 0)) (hs : (r 0).cfg.topology = .split) (n : Nat) :
    Inv (r n) ∧ (r n).cfg.topology = .split := by
  induction n with
  | zero => exact ⟨hi, hs⟩
  | succ n ih =>
    obtain ⟨-, -, heff⟩ := runTurn_next (hr n)
    exact ⟨heff.keeps_inv ih.1, by rw [heff.frame.1, ih.2]⟩

/-- While a frame stays in flight, no turn puts its end off, and a tick brings it nearer. -/
theorem IsRun.txRemaining_succ (hr : IsRun turn r) (hnr : ∀ n, notReset (turn n) = true) {n : Nat} (hi : Inv (r n))
    (hs : (r n).cfg.topology = .split) (hie : (r n).txIe = true) (hie' : (r (n + 1)).txIe = true) :
    txRemaining (r (n + 1)) + (if turn n = .event .bclkTick then 1 else 0) ≤ txRemaining (r n) := by
  obtain ⟨-, -, heff⟩ := runTurn_next (hr n)
  obtain ⟨hb, hnext⟩ | ⟨hb, hsame⟩ := heff.tick_or_same hs hie (hnr n)
  · rw [hnext] at hie' ⊢
    have hlt := txRemaining_bclkTick hi hs hie hie'
    simp only [hb, if_true]
    omega
  · simp [hb, txRemaining_eq_of_txView hsame]

/-- Along a run the end of a frame that stays in flight is never put off. -/
theorem IsRun.txRemaining_le (hr : IsRun turn r) (hnr : ∀ n, notReset (turn n) = true)
    (hinv : ∀ m, Inv (r m) ∧ (r m).cfg.topology = .split) {m : Nat} (hie : ∀ i, m ≤ i → (r i).txIe = true) (d : Nat) :
    txRemaining (r (m + d)) ≤ txRemaining (r m) := by
  induction d with
  | zero => exact le_rfl
  | succ d ih =>
    obtain ⟨hi, hs⟩ := hinv (m + d)
    have hstep := hr.txRemaining_succ hnr hi hs (hie _ (by omega)) (hie _ (by omega))
    exact ((Nat.le_add_right _ _).trans hstep).trans ih

/-- A frame that stayed in flight for good would have its end brought nearer without bound. -/
theorem IsRun.txRemaining_unbounded (hr : IsRun turn r) (hnr : ∀ n, notReset (turn n) = true) (hf : BclkFair turn r)
    (hinv : ∀ m, Inv (r m) ∧ (r m).cfg.topology = .split) {n : Nat} (hie : ∀ i, n ≤ i → (r i).txIe = true) (k : Nat) :
    ∃ m, n ≤ m ∧ txRemaining (r m) + k ≤ txRemaining (r n) := by
  induction k with
  | zero => exact ⟨n, le_rfl, le_rfl⟩
  | succ k ih =>
    obtain ⟨m, hm, hk⟩ := ih
    obtain ⟨j, hj, htick⟩ := hf m fun i _ => (hinv i).1.running (hinv i).2
    obtain ⟨hi, hs⟩ := hinv j
    have hdown := hr.txRemaining_le hnr hinv (fun i hi => hie i (hm.trans hi)) (j - m)
    have hstep := hr.txRemaining_succ hnr hi hs (hie _ (by omega)) (hie _ (by omega))
    rw [Nat.add_sub_cancel' hj] at hdown
    rw [if_pos htick] at hstep
    exact ⟨j + 1, by omega, by omega⟩

end

/-- Settles O54: fair ticks bring the end of a frame nearer, and what remains is a number. -/
theorem frameEndsInEveryFairRun : Obligations.FrameEndsInEveryFairRun := by
  intro turn r hr hi hs hnr hf n hie
  by_contra hnever
  have hbusy (m : Nat) (hm : n ≤ m) : (r m).txIe = true := by
    obtain rfl | hlt := hm.eq_or_lt
    · exact hie
    · by_contra hend
      exact hnever ⟨m, hlt, by simpa using hend⟩
  obtain ⟨m, -, hk⟩ := hr.txRemaining_unbounded hnr hf (hr.inv_split hi hs) hbusy (txRemaining (r n) + 1)
  omega

/-! ### The timeline -/

/-- The time base and the transmitter `n` ticks after `s` accepted a SEND of `b`, while the frame is in flight: `n / BITP`
slots have been put on the line (R224). -/
def txViewAfter (s : State) (b : Byte) (n : Nat) : TxView :=
  let k := n / s.cfg.bitp
  (s.cfg, addT s.cfg s.cnt n, true, addT s.cfg s.cnt ((k + 1) * s.cfg.bitp), frame b >>> k, BitVec.ofNat 4 (10 - k), true,
    if n < s.cfg.bitp then s.txd else slot b (k - 1))

/-- Two counts less than one turn of the counter apart are the same only if they are equal. -/
theorem addT_inj {c : Config} {a m n : Nat} (hmn : m ≤ n) (hd : n - m < 2 ^ c.tmrW) :
    addT c a m = addT c a n ↔ m = n := by
  constructor
  · intro h
    have hmod : (n - m) % 2 ^ c.tmrW = 0 := by
      have := Nat.sub_mod_eq_zero_of_mod_eq h.symm
      rwa [show a + n - (a + m) = n - m by omega] at this
    rw [Nat.mod_eq_of_lt hd] at hmod
    omega
  · rintro rfl; rfl

theorem addT_assoc (c : Config) (a m n : Nat) : addT c (addT c a m) n = addT c a (m + n) := by
  rw [addT_addT, addT, Nat.add_assoc]

/-- The bit counter after `k` slots of a frame. -/
theorem txbitcnt_after {k : Nat} (hk : k < 9) :
    BitVec.ofNat 4 (10 - k) ≠ 1 ∧ BitVec.ofNat 4 (10 - k) - 1 = BitVec.ofNat 4 (10 - (k + 1)) := by
  revert k; decide

/-- A shifted frame has the next slot lowest. -/
theorem frame_shift_low (b : Byte) (k : Nat) : (frame b >>> k).getLsbD 0 = slot b k := by
  simp [slot]

theorem frame_stopBit (b : Byte) : slot b 9 = true := by revert b; decide

/-- A count lies in its own slot. -/
theorem slot_bounds {p : Nat} (hp : 0 < p) (n : Nat) : n / p * p ≤ n ∧ n < (n / p + 1) * p :=
  ⟨Nat.div_mul_le_self n p, by rw [Nat.add_one_mul]; exact Nat.lt_div_mul_add hp⟩

/-- The TX channel has a match at the tick that completes a bit period, and at no other. -/
theorem txMatch_iff_slotEnds {s t : State} {b : Byte} {n : Nat} (hc : s.cfg.ok = true)
    (h : txView t = txViewAfter s b n) : TxMatch t ↔ n + 1 = (n / s.cfg.bitp + 1) * s.cfg.bitp := by
  obtain ⟨hcfg, hcnt, -, hccr, -, -, hie, -⟩ := txView_eq_iff.mp h
  obtain ⟨-, hb, -, -, -, hspan, -⟩ := (config_ok_iff _).mp hc
  obtain ⟨hlow, hhigh⟩ := slot_bounds (show 0 < s.cfg.bitp by omega) n
  have hnear : (n / s.cfg.bitp + 1) * s.cfg.bitp = n / s.cfg.bitp * s.cfg.bitp + s.cfg.bitp := Nat.add_one_mul _ _
  rw [TxMatch, hie, hcfg, hcnt, hccr, addT_assoc, addT_inj (by omega) (by omega)]
  simp

/-- The frame starts with its first target one bit period ahead (R221). -/
theorem txView_of_send {s s0 : State} {b : Byte} (hi : Inv s) (hrun : s.cntRun = true) (hie : s.txIe = false)
    (hsend : exec (.send b) s = .next s0) : Ready s0 ∧ txView s0 = txViewAfter s b 0 := by
  obtain ⟨hr, ⟨hh, -⟩ | ⟨-, rfl⟩⟩ := exec_next_iff.mp hsend
  · simp [isHeld, hie] at hh
  · obtain ⟨hc, ⟨hcnt, -⟩, -, hidle, -⟩ := hi
    obtain ⟨-, hb, -⟩ := (config_ok_iff _).mp hc
    have hpos : 0 < s.cfg.bitp := by omega
    have hzero : addT s.cfg s.cnt 0 = s.cnt := Nat.mod_eq_of_lt hcnt
    refine ⟨hr, ?_⟩
    simp [txViewAfter, txView, commandEffect, hrun, hpos, hzero, (hidle hie).1]

/-- One tick on, unless it ends the frame (R223, R224). -/
theorem txView_bclkTick {s t : State} {b : Byte} {n : Nat} (hc : s.cfg.ok = true) (h : txView t = txViewAfter s b n)
    (hn : n + 1 < 10 * s.cfg.bitp) : txView (bclkTick t) = txViewAfter s b (n + 1) := by
  obtain ⟨hcfg, hcnt, hrun, hccr, hsr, hbit, hie, hd⟩ := txView_eq_iff.mp h
  obtain ⟨-, hb, -⟩ := (config_ok_iff _).mp hc
  obtain ⟨hlow, hhigh⟩ := slot_bounds (show 0 < s.cfg.bitp by omega) n
  have hmatch := txMatch_iff_slotEnds hc h
  by_cases hm : n + 1 = (n / s.cfg.bitp + 1) * s.cfg.bitp
  · have hk : (n + 1) / s.cfg.bitp = n / s.cfg.bitp + 1 := by
      rw [hm, Nat.mul_div_cancel _ (by omega)]
    have hk9 : n / s.cfg.bitp < 9 := by
      have hlt := Nat.lt_of_mul_lt_mul_right (hm ▸ hn)
      omega
    have hfirst : ¬n + 1 < s.cfg.bitp := by
      have hge := Nat.le_mul_of_pos_left s.cfg.bitp (Nat.add_one_pos (n / s.cfg.bitp))
      omega
    obtain ⟨hne, hpred⟩ := txbitcnt_after hk9
    rw [bclkTick_tx_bit hrun (hmatch.mpr hm) (by rwa [hbit])]
    simp only [txViewAfter, hk, hfirst, hcfg, hcnt, hrun, hccr, hsr, hbit, hpred, addT_assoc, frame_shift_low,
      BitVec.shiftRight_add, if_false, Nat.add_one_mul (n / s.cfg.bitp + 1), Nat.add_sub_cancel]
  · have hk : (n + 1) / s.cfg.bitp = n / s.cfg.bitp := Nat.div_eq_of_lt_le (by omega) (by omega)
    have hfirst : n + 1 < s.cfg.bitp ↔ n < s.cfg.bitp := by
      refine ⟨fun h => by omega, fun h => ?_⟩
      rw [Nat.div_eq_of_lt h] at hm
      omega
    rw [bclkTick_tx_noMatch hrun (mt hmatch.mp hm)]
    simp only [txViewAfter, hk, hfirst, hcfg, hcnt, hrun, hccr, hsr, hbit, hie, hd, addT_assoc]

/-- The tick number 10*BITP ends the frame with the stop bit on the line (R223, R224). -/
theorem bclkTick_endsFrame {s t : State} {b : Byte} {n : Nat} (hc : s.cfg.ok = true) (h : txView t = txViewAfter s b n)
    (hn : n + 1 = 10 * s.cfg.bitp) :
    (bclkTick t).txIe = false ∧ (bclkTick t).txbitcnt = 10 ∧ (bclkTick t).txd = true := by
  obtain ⟨hcfg, -, hrun, -, hsr, hbit, -, -⟩ := txView_eq_iff.mp h
  obtain ⟨-, hb, -⟩ := (config_ok_iff _).mp hc
  have hk : n / s.cfg.bitp = 9 := Nat.div_eq_of_lt_le (by omega) (by omega)
  have hm : TxMatch t := (txMatch_iff_slotEnds hc h).mpr (by rw [hk]; omega)
  rw [hk] at hsr hbit
  obtain ⟨-, -, -, -, -, hbit', hie, hd⟩ := txView_eq_iff.mp (bclkTick_tx_last (by rwa [hcfg]) hrun hm hbit)
  exact ⟨hie, hbit', by rw [hd, hsr, frame_shift_low, frame_stopBit]⟩

/-- The timeline through any turns but a reset: only the ticks among them count. -/
theorem txView_runTurns {s : State} {b : Byte} (hc : s.cfg.ok = true) (hs : s.cfg.topology = .split)
    {ts : List Turn} (hts : ts.all notReset = true) {t : State} {n : Nat} (hr : Ready t)
    (h : txView t = txViewAfter s b n) (hn : n + ts.count (.event .bclkTick) < 10 * s.cfg.bitp) :
    ∃ u, runTurns ts t = .next u ∧ txView u = txViewAfter s b (n + ts.count (.event .bclkTick)) := by
  induction ts generalizing t n with
  | nil => exact ⟨t, rfl, h⟩
  | cons a ts ih =>
    obtain ⟨ha, hts⟩ : notReset a = true ∧ ts.all notReset = true := by simpa using hts
    obtain ⟨t', ht'⟩ := runTurn_ready hr ha
    obtain ⟨-, -, heff⟩ := runTurn_next ht'
    obtain ⟨hcfg', hhalt⟩ := heff.frame
    have hr' : Ready t' := ⟨by rw [hcfg', hr.1], by rw [hhalt ha, hr.2]⟩
    obtain ⟨hcfg, -, -, -, -, -, hie, -⟩ := txView_eq_iff.mp h
    rw [runTurns_cons _ _ _ _ ht']
    obtain ⟨rfl, rfl⟩ | ⟨hb, hsame⟩ := heff.tick_or_same (by rwa [hcfg]) hie ha
    · rw [List.count_cons_self] at hn ⊢
      rw [Nat.add_comm _ 1, ← Nat.add_assoc] at hn ⊢
      exact ih hts hr' (txView_bclkTick hc h (by omega)) hn
    · rw [List.count_cons_of_ne hb] at hn ⊢
      exact ih hts hr' (hsame.trans h) hn

/-- Settles O51: the transmitter after the ticks among the turns is `txViewAfter`, and the next tick may be the last. -/
theorem txTimelineUnderAnyInterleaving : Obligations.TxTimelineUnderAnyInterleaving := by
  intro s s0 b ts hi hs hie hsend hts hn
  obtain ⟨hr, h0⟩ := txView_of_send hi (hi.running hs) hie hsend
  obtain ⟨hc, -⟩ := hi
  obtain ⟨t, ht, hview⟩ := txView_runTurns hc hs hts hr h0 (by rwa [Nat.zero_add])
  rw [Nat.zero_add] at hview
  obtain ⟨-, hcnt, -, -, -, -, hie', hd⟩ := txView_eq_iff.mp hview
  exact ⟨t, ht, hie', hcnt, hd, bclkTick_endsFrame hc hview⟩

end Sys2Proof.Machine

/-! Reception of a frame, driven by a sender or looped back from the transmitter (44_uart_rx.md R257,
95_test_vectors.md V5). -/

namespace Sys2Proof.Machine

/-! ### The bits of a frame and of the shift register -/

theorem slot_start (b : Byte) : slot b 0 = false := by simp [slot, frame]

/-- The data bits are the slots after the start bit (R115). -/
theorem slot_data (b : Byte) {k : Nat} (hk : k < 8) : slot b (k + 1) = b.getLsbD k := by
  revert b
  interval_cases k <;> decide

/-- A sample puts the line at the top of RXSR and moves the other bits down (R252). -/
theorem rxSample_rxsr_getLsbD (s : State) {j : Nat} (hj : j < 8) :
    (rxSample s).rxsr.getLsbD j = if j = 7 then s.rxd else s.rxsr.getLsbD (j + 1) := by
  simp only [rxSample, BitVec.getLsbD_or, BitVec.getLsbD_ushiftRight, BitVec.getLsbD_shiftLeft]
  by_cases h : j = 7
  · simp [h]
  · have hlow : j < 7 := by omega
    simp [h, hlow, Nat.add_comm]

/-! ### A reception in progress -/

/-- How many samples a receiver has taken `m` ticks after its start edge: the first comes one and a half bit periods after
it, and the others a bit period apart (R251, R252). -/
def samplesTaken (c : Config) (m : Nat) : Nat := (m - c.halfp) / c.bitp

/-- The state `t` is `m` ticks after the start edge, which came at `s`: the samples taken are the lowest bits of `b`, and
nothing is published yet. -/
structure Receiving (s : State) (b : Byte) (m : Nat) (t : State) : Prop where
  cfg : t.cfg = s.cfg
  running : t.cntRun = true
  cnt : ∀ d, addT s.cfg t.cnt d = addT s.cfg s.cnt (m + d)
  mode : t.rxMode = .compare
  target : t.rxccr = addT s.cfg s.cnt (s.cfg.halfp + (samplesTaken s.cfg m + 1) * s.cfg.bitp)
  bitcnt : t.rxbitcnt = BitVec.ofNat 4 (8 - samplesTaken s.cfg m)
  bits : ∀ i, i < samplesTaken s.cfg m → t.rxsr.getLsbD (8 - samplesTaken s.cfg m + i) = b.getLsbD i
  buf : t.rxbuf = s.rxbuf

/-- A falling edge in CAPTURE starts a reception (R251). -/
theorem Receiving.start {s : State} (b : Byte) (hrun : s.cntRun = true) (hmode : s.rxMode = .capture)
    (hbit : s.rxbitcnt = 8) (hrxd : s.rxd = true) : Receiving s b 0 (rxdSet false s) := by
  rw [rxdSet_startEdge ⟨hrxd, rfl, hmode⟩]
  have hk : samplesTaken s.cfg 0 = 0 := by simp [samplesTaken]
  refine ⟨rfl, hrun, by simp, rfl, ?_, by simp [hk, hbit], by simp [hk], rfl⟩
  simp only [addT, hk, Nat.zero_add, Nat.one_mul, Nat.add_assoc, Nat.add_comm s.cfg.halfp]

/-- In COMPARE an RXD change is no edge (R250). -/
theorem rxdSet_compare {s : State} (v : Bool) (h : s.rxMode = .compare) : rxdSet v s = { s with rxd := v } :=
  rxdSet_noCapture (by simp [h])

theorem Receiving.rxdSet {s t : State} {b : Byte} {m : Nat} (h : Receiving s b m t) (v : Bool) :
    Receiving s b m (rxdSet v t) := by
  rw [rxdSet_compare v h.mode]
  obtain ⟨hcfg, hrun, hcnt, hmode, htgt, hbit, hbits, hbuf⟩ := h
  exact ⟨hcfg, hrun, hcnt, hmode, htgt, hbit, hbits, hbuf⟩

/-- The next sample is ahead. -/
theorem samplesTaken_bounds {c : Config} (hc : c.ok = true) (m : Nat) :
    samplesTaken c m * c.bitp ≤ m - c.halfp ∧ m + 1 ≤ c.halfp + (samplesTaken c m + 1) * c.bitp ∧
      c.halfp + (samplesTaken c m + 1) * c.bitp ≤ m + c.halfp + c.bitp := by
  obtain ⟨-, hb, -⟩ := (config_ok_iff _).mp hc
  obtain ⟨hlow, hhigh⟩ := slot_bounds (show 0 < c.bitp by omega) (m - c.halfp)
  have hnext : ((m - c.halfp) / c.bitp + 1) * c.bitp = (m - c.halfp) / c.bitp * c.bitp + c.bitp := Nat.add_one_mul _ _
  unfold samplesTaken
  omega

/-- The RX channel has a match at the tick of the next sample, and at no other. -/
theorem Receiving.rxMatch_iff {s t : State} {b : Byte} {m : Nat} (h : Receiving s b m t) (hc : s.cfg.ok = true) :
    RxMatch t ↔ m + 1 = s.cfg.halfp + (samplesTaken s.cfg m + 1) * s.cfg.bitp := by
  obtain ⟨-, -, -, -, hspan, -⟩ := (config_ok_iff _).mp hc
  obtain ⟨-, hle, hnear⟩ := samplesTaken_bounds hc m
  rw [RxMatch, h.mode, h.cfg, h.cnt, h.target, addT_inj hle (by omega)]
  simp

/-- At a sample's tick the line carries the data bit that is due, if the sender is at slot `m / BITP`. -/
theorem slot_at_sample {c : Config} (hc : c.ok = true) {m : Nat} (b : Byte)
    (hm : m + 1 = c.halfp + (samplesTaken c m + 1) * c.bitp) (hk : samplesTaken c m < 8) :
    slot b (m / c.bitp) = b.getLsbD (samplesTaken c m) := by
  obtain ⟨-, hb, hh, hhb, -⟩ := (config_ok_iff _).mp hc
  have hnext : (samplesTaken c m + 1 + 1) * c.bitp = (samplesTaken c m + 1) * c.bitp + c.bitp := Nat.add_one_mul _ _
  have hdiv : m / c.bitp = samplesTaken c m + 1 := Nat.div_eq_of_lt_le (by omega) (by omega)
  rw [hdiv, slot_data b hk]

/-- The samples taken with one more bit, after the shift. -/
theorem Receiving.bits_sample {s t : State} {b : Byte} {m : Nat} (h : Receiving s b m t)
    (hk : samplesTaken s.cfg m < 8) (hd : t.rxd = b.getLsbD (samplesTaken s.cfg m)) {i : Nat}
    (hi : i < samplesTaken s.cfg m + 1) :
    (rxSample t).rxsr.getLsbD (8 - (samplesTaken s.cfg m + 1) + i) = b.getLsbD i := by
  rw [rxSample_rxsr_getLsbD t (by omega)]
  by_cases hlast : i = samplesTaken s.cfg m
  · rw [if_pos (by omega), hd, hlast]
  · rw [if_neg (by omega), ← h.bits i (by omega)]
    congr 1
    omega

/-- The bit counter after `k` samples. -/
theorem rxbitcnt_after {k : Nat} (hk : k < 7) :
    BitVec.ofNat 4 (8 - k) ≠ 1 ∧ BitVec.ofNat 4 (8 - k) - 1 = BitVec.ofNat 4 (8 - (k + 1)) := by
  revert k; decide

/-- One tick on, before the last sample. -/
theorem Receiving.bclkTick {s t : State} {b : Byte} {m : Nat} (h : Receiving s b m t) (hc : s.cfg.ok = true)
    (hd : t.rxd = slot b (m / s.cfg.bitp)) (hm : m + 1 < 8 * s.cfg.bitp + s.cfg.halfp) :
    Receiving s b (m + 1) (bclkTick t) := by
  obtain ⟨-, hb, -⟩ := (config_ok_iff _).mp hc
  obtain ⟨hlow, hle, -⟩ := samplesTaken_bounds hc m
  have hnext : (samplesTaken s.cfg m + 1) * s.cfg.bitp = samplesTaken s.cfg m * s.cfg.bitp + s.cfg.bitp :=
    Nat.add_one_mul _ _
  have hmatch := h.rxMatch_iff hc
  have hcnt (d : Nat) : addT s.cfg (Machine.bclkTick t).cnt d = addT s.cfg s.cnt (m + 1 + d) := by
    rw [bclkTick_cnt, if_pos h.running, h.cfg, addT_assoc, h.cnt, Nat.add_assoc]
  by_cases hs : m + 1 = s.cfg.halfp + (samplesTaken s.cfg m + 1) * s.cfg.bitp
  · have hk : samplesTaken s.cfg (m + 1) = samplesTaken s.cfg m + 1 := by
      rw [samplesTaken, hs, Nat.add_sub_cancel_left, Nat.mul_div_cancel _ (by omega)]
    have hk7 : samplesTaken s.cfg m < 7 := by
      have hlt : (samplesTaken s.cfg m + 1) * s.cfg.bitp < 8 * s.cfg.bitp := by omega
      have := Nat.lt_of_mul_lt_mul_right hlt
      omega
    obtain ⟨hne, hpred⟩ := rxbitcnt_after hk7
    obtain ⟨hccr, hsr, hbit, hmode, hbuf, -⟩ :=
      rxView_eq_iff.mp (bclkTick_rx_bit h.running (hmatch.mpr hs) (by rwa [h.bitcnt]))
    have hline := hd.trans (slot_at_sample hc b hs (by omega))
    refine ⟨by simpa using h.cfg, by simpa using h.running, hcnt, hmode, ?_, ?_, fun i hi => ?_, hbuf.trans h.buf⟩
    · rw [hccr, h.cfg, h.target, addT_assoc, hk, Nat.add_one_mul (samplesTaken s.cfg m + 1), Nat.add_assoc]
    · rw [hbit, h.bitcnt, hpred, hk]
    · rw [hk] at hi ⊢
      rw [hsr, h.bits_sample (by omega) hline hi]
  · have hk : samplesTaken s.cfg (m + 1) = samplesTaken s.cfg m := Nat.div_eq_of_lt_le (by omega) (by omega)
    obtain ⟨hccr, hsr, hbit, hmode, hbuf, -⟩ := rxView_eq_iff.mp (bclkTick_rx_noMatch h.running (mt hmatch.mp hs))
    refine ⟨by simpa using h.cfg, by simpa using h.running, hcnt, hmode.trans h.mode, ?_, ?_, ?_, hbuf.trans h.buf⟩
    · rw [hccr, hk, h.target]
    · rw [hbit, hk, h.bitcnt]
    · rw [hsr, hk]
      exact h.bits

/-- The byte has been published, and the receiver is idle again (R253). -/
structure Received (b : Byte) (t : State) : Prop where
  buf : t.rxbuf = b
  avail : t.rxavail = true
  mode : t.rxMode = .capture
  bitcnt : t.rxbitcnt = 8

/-- The tick of the eighth sample publishes the byte (R252, R253). -/
theorem Receiving.publishes {s t : State} {b : Byte} {m : Nat} (h : Receiving s b m t) (hc : s.cfg.ok = true)
    (hd : t.rxd = slot b (m / s.cfg.bitp)) (hm : m + 1 = 8 * s.cfg.bitp + s.cfg.halfp) :
    Received b (Machine.bclkTick t) := by
  obtain ⟨-, hb, -⟩ := (config_ok_iff _).mp hc
  have hk : samplesTaken s.cfg m = 7 := Nat.div_eq_of_lt_le (by omega) (by omega)
  have hs : m + 1 = s.cfg.halfp + (samplesTaken s.cfg m + 1) * s.cfg.bitp := by rw [hk]; omega
  have hline := hd.trans (slot_at_sample hc b hs (by omega))
  have hbyte : (rxSample t).rxsr = b := by
    refine BitVec.eq_of_getLsbD_eq fun i hi => ?_
    have hbit := h.bits_sample (i := i) (by omega) hline (by omega)
    rwa [hk, show 8 - (7 + 1) + i = i by omega] at hbit
  have hlast : t.rxbitcnt = 1 := by rw [h.bitcnt, hk]; rfl
  obtain ⟨-, -, hbit, hmode, hbuf, havail, -⟩ :=
    rxView_eq_iff.mp (bclkTick_rx_last (by rw [h.cfg, hc]) h.running ((h.rxMatch_iff hc).mpr hs) hlast)
  exact ⟨hbuf.trans hbyte, havail, hmode, hbit⟩

/-- An idle receiver is not changed by ticks. -/
theorem rxView_ticks_capture {t : State} (n : Nat) (hrun : t.cntRun = true) (hmode : t.rxMode = .capture) :
    rxView (ticks n t) = rxView t := by
  induction n with
  | zero => rfl
  | succ n ih =>
    obtain ⟨-, -, -, hmode', -⟩ := rxView_eq_iff.mp ih
    have hrun' : (ticks n t).cntRun = true := by simpa using hrun
    have hm : ¬RxMatch (ticks n t) := fun h => by simp [RxMatch, hmode', hmode] at h
    rw [ticks_succ, bclkTick_rx_noMatch hrun' hm, ih]

theorem Received.ticks {t : State} {b : Byte} (h : Received b t) (n : Nat) (hrun : t.cntRun = true) :
    Received b (ticks n t) := by
  obtain ⟨-, -, hbit, hmode, hbuf, havail, -⟩ := rxView_eq_iff.mp (rxView_ticks_capture n hrun h.mode)
  exact ⟨hbuf.trans h.buf, havail.trans h.avail, hmode.trans h.mode, hbit.trans h.bitcnt⟩

/-! ### A sender's frame -/

/-- Within a slot the reception goes on tick by tick. -/
theorem Receiving.ticks {s t : State} {b : Byte} {j n : Nat} (h : Receiving s b (j * s.cfg.bitp) t)
    (hc : s.cfg.ok = true) (hd : t.rxd = slot b j) (hn : n ≤ s.cfg.bitp)
    (hlt : j * s.cfg.bitp + n < 8 * s.cfg.bitp + s.cfg.halfp) :
    Receiving s b (j * s.cfg.bitp + n) (ticks n t) := by
  induction n with
  | zero => exact h
  | succ n ih =>
    have hslot : (j * s.cfg.bitp + n) / s.cfg.bitp = j :=
      Nat.div_eq_of_lt_le (by omega) (by rw [Nat.add_one_mul]; omega)
    rw [ticks_succ]
    exact (ih (by omega) (by omega)).bclkTick hc (by simpa [hslot] using hd) (by omega)

/-- The first `n` slots of a sender's frame. -/
def driveSlots (b : Byte) (n : Nat) (s : State) : State :=
  (List.range n).foldl (fun t k => holdLine (slot b k) t.cfg.bitp t) s

theorem driveSlots_succ (b : Byte) (n : Nat) (s : State) :
    driveSlots b (n + 1) s = holdLine (slot b n) (driveSlots b n s).cfg.bitp (driveSlots b n s) := by
  simp [driveSlots, List.range_succ]

theorem driveFrame_eq (b : Byte) (s : State) : driveFrame b s = driveSlots b 10 s := rfl

@[simp] theorem rxdSet_rxd (v : Bool) (s : State) : (rxdSet v s).rxd = v := by
  unfold Machine.rxdSet; split <;> rfl

section
variable {s : State} (b : Byte) (hc : s.cfg.ok = true) (hrun : s.cntRun = true) (hmode : s.rxMode = .capture)
  (hbit : s.rxbitcnt = 8) (hrxd : s.rxd = true)
include hc hrun hmode hbit hrxd

/-- The start bit and the data bits before the last leave the receiver in the middle of its reception. -/
theorem receiving_driveSlots {j : Nat} (hj : j < 8) : Receiving s b ((j + 1) * s.cfg.bitp) (driveSlots b (j + 1) s) := by
  obtain ⟨-, hb, hh, -⟩ := (config_ok_iff _).mp hc
  have hend (j : Nat) (hj : j < 8) : j * s.cfg.bitp + s.cfg.bitp < 8 * s.cfg.bitp + s.cfg.halfp := by
    have := Nat.mul_le_mul_right s.cfg.bitp (show j + 1 ≤ 8 by omega)
    rw [Nat.add_one_mul] at this
    omega
  induction j with
  | zero =>
    have h0 : Receiving s b (0 * s.cfg.bitp) (rxdSet false s) := by
      rw [Nat.zero_mul]; exact .start b hrun hmode hbit hrxd
    have h1 := h0.ticks hc (by simp [slot_start]) le_rfl (hend 0 hj)
    rw [Nat.add_one_mul, driveSlots_succ, slot_start]
    exact h1
  | succ j ih =>
    have h := ih (by omega)
    have h1 := (h.rxdSet (slot b (j + 1))).ticks hc (by simp) le_rfl (hend _ hj)
    rw [Nat.add_one_mul (j + 1), driveSlots_succ, h.cfg]
    exact h1

/-- In the slot of the last data bit the byte is published. -/
theorem received_driveSlots_data : Received b (driveSlots b 9 s) ∧ (driveSlots b 9 s).cntRun = true := by
  obtain ⟨-, hb, hh, hhb, -⟩ := (config_ok_iff _).mp hc
  have h := receiving_driveSlots b hc hrun hmode hbit hrxd (j := 7) (by omega)
  have hline := h.rxdSet (slot b 8)
  have hlast := hline.ticks (n := s.cfg.halfp - 1) hc (by simp) (by omega) (by omega)
  have hslot : (8 * s.cfg.bitp + (s.cfg.halfp - 1)) / s.cfg.bitp = 8 := Nat.div_eq_of_lt_le (by omega) (by omega)
  have hpub := hlast.publishes hc (by simp [hslot]) (by omega)
  have hsplit : s.cfg.bitp = (s.cfg.halfp - 1 + 1) + (s.cfg.bitp - s.cfg.halfp) := by omega
  rw [driveSlots_succ, h.cfg, holdLine, hsplit, ticks_add, ticks_succ]
  exact ⟨hpub.ticks _ (by simpa using h.running), by simpa using h.running⟩

end

/-- The stop bit finds an idle receiver and leaves it so. -/
theorem Received.stopBit {t : State} {b : Byte} (h : Received b t) (hrun : t.cntRun = true) (n : Nat) :
    Received b (holdLine true n t) ∧ (holdLine true n t).rxd = true ∧ (holdLine true n t).cntRun = true := by
  have hline : Received b (rxdSet true t) := by
    rw [rxdSet_noCapture (by simp)]
    obtain ⟨hbuf, havail, hmode, hbit⟩ := h
    exact ⟨hbuf, havail, hmode, hbit⟩
  exact ⟨hline.ticks n (by simpa using hrun), by simp [holdLine], by simpa [holdLine] using hrun⟩

/-- Settles O52: the start edge, the samples in the middle of the data bits, and an idle receiver through the stop bit. -/
theorem drivenFrameIsReceived : Obligations.DrivenFrameIsReceived := by
  intro s b hc hrun hmode hbit hrxd
  obtain ⟨hrec, hrun'⟩ := received_driveSlots_data b hc hrun hmode hbit hrxd
  rw [driveFrame_eq, driveSlots_succ, frame_stopBit]
  obtain ⟨⟨hbuf, havail, hmode', hbit'⟩, hrxd', hend⟩ := hrec.stopBit hrun' (driveSlots b 9 s).cfg.bitp
  exact ⟨hbuf, havail, hmode', hbit', hrxd', hend⟩

end Sys2Proof.Machine

/-! ### Loopback -/

namespace Sys2Proof.Machine

theorem loopback_succ (n : Nat) (t : State) : loopback (n + 1) t = loopbackTick (loopback n t) := by
  induction n generalizing t with
  | zero => rfl
  | succ n ih => exact ih (loopbackTick t)

/-- After a loopback tick the line is what the transmitter drives. -/
@[simp] theorem loopbackTick_rxd (t : State) : (loopbackTick t).rxd = (bclkTick t).txd := rxdSet_rxd _ _

/-- The transmitter does not see the receiver's line. -/
theorem txView_loopbackTick (t : State) : txView (loopbackTick t) = txView (bclkTick t) := by
  simp [txView, loopbackTick]

/-- A SEND leaves the receiver alone. -/
theorem rxView_of_send {s t : State} {b : Byte} (hie : s.txIe = false) (hsend : exec (.send b) s = .next t) :
    rxView t = rxView s := by
  obtain ⟨-, ⟨hh, -⟩ | ⟨-, rfl⟩⟩ := exec_next_iff.mp hsend
  · simp [isHeld, hie] at hh
  · simp [rxView, commandEffect]

/-- A loopback tick with the line high leaves an idle receiver with a high line alone. -/
theorem rxView_loopbackTick_idle {t : State} (hrun : t.cntRun = true) (hmode : t.rxMode = .capture)
    (hrxd : t.rxd = true) (hd : (bclkTick t).txd = true) : rxView (loopbackTick t) = rxView t := by
  have htick : rxView (bclkTick t) = rxView t := rxView_ticks_capture 1 hrun hmode
  rw [loopbackTick, rxdSet_noCapture (by simp [hd]), ← htick]
  simp [rxView, hd, hrxd]

section
variable {s t : State} {b : Byte} (hi : Inv s) (hrun : s.cntRun = true) (hie : s.txIe = false)
  (hsend : exec (.send b) s = .next t)
include hi hrun hie hsend

/-- The transmitter keeps its timeline under loopback (R224). -/
theorem txView_loopback {n : Nat} (hn : n < 10 * s.cfg.bitp) : txView (loopback n t) = txViewAfter s b n := by
  induction n with
  | zero => exact (txView_of_send hi hrun hie hsend).2
  | succ n ih =>
    obtain ⟨hc, -⟩ := hi
    rw [loopback_succ, txView_loopbackTick, txView_bclkTick hc (ih (by omega)) hn]

/-- From the first tick on the receiver's line is the transmitter's. -/
theorem loopback_rxd {n : Nat} (hn : n + 1 < 10 * s.cfg.bitp) :
    (loopback (n + 1) t).rxd = if n + 1 < s.cfg.bitp then s.txd else slot b ((n + 1) / s.cfg.bitp - 1) := by
  obtain ⟨hc, -⟩ := id hi
  obtain ⟨-, -, -, -, -, -, -, hd⟩ :=
    txView_eq_iff.mp (txView_bclkTick hc (txView_loopback hi hrun hie hsend (by omega)) hn)
  rw [loopback_succ, loopbackTick_rxd, hd]

section
variable (hmode : s.rxMode = .capture) (hrxd : s.rxd = true)
include hmode hrxd

/-- Until the start bit the line is high and the receiver idle. -/
theorem rxView_loopback_idle {n : Nat} (hn : n < s.cfg.bitp) : rxView (loopback n t) = rxView s := by
  induction n with
  | zero => exact rxView_of_send hie hsend
  | succ n ih =>
    have hidle := ih (by omega)
    have hd := loopback_rxd hi hrun hie hsend (n := n) (by omega)
    obtain ⟨-, -, hrun', -⟩ := txView_eq_iff.mp (txView_loopback hi hrun hie hsend (n := n) (by omega))
    obtain ⟨-, -, -, hmode', -, -, hrxd'⟩ := rxView_eq_iff.mp hidle
    obtain ⟨-, -, -, htx, -⟩ := hi
    rw [loopback_succ, loopbackTick_rxd, if_pos hn, (htx hie).2] at hd
    rw [loopback_succ, rxView_loopbackTick_idle hrun' (hmode'.trans hmode) (hrxd'.trans hrxd) hd, hidle]

/-- The state in which the start bit comes: the tick number BITP has driven the line low, and RXD follows. -/
theorem loopback_startEdge :
    ∃ e, loopback s.cfg.bitp t = rxdSet false e ∧ e.cfg = s.cfg ∧ e.cntRun = true ∧ rxView e = rxView s := by
  obtain ⟨-, hb, -⟩ := (config_ok_iff _).mp hi.1
  obtain ⟨n, hn⟩ : ∃ n, s.cfg.bitp = n + 1 := ⟨s.cfg.bitp - 1, by omega⟩
  have hidle := rxView_loopback_idle hi hrun hie hsend hmode hrxd (n := n) (by omega)
  have hd := loopback_rxd hi hrun hie hsend (n := n) (by omega)
  obtain ⟨hcfg, -, hrun', -⟩ := txView_eq_iff.mp (txView_loopback hi hrun hie hsend (n := n) (by omega))
  obtain ⟨-, -, -, hmode', -⟩ := rxView_eq_iff.mp hidle
  have htick : rxView (bclkTick (loopback n t)) = rxView (loopback n t) :=
    rxView_ticks_capture 1 hrun' (hmode'.trans hmode)
  rw [if_neg (by omega), ← hn, Nat.div_self (by omega), Nat.sub_self, slot_start, hn, loopback_succ,
    loopbackTick_rxd] at hd
  exact ⟨bclkTick (loopback n t), by rw [hn, loopback_succ, loopbackTick, hd], by simpa using hcfg,
    by simpa using hrun', htick.trans hidle⟩

/-- From the start bit on the receiver takes the frame that the transmitter drives. -/
theorem receiving_loopback (hbit : s.rxbitcnt = 8) :
    ∃ e, e.cfg = s.cfg ∧ e.rxbuf = s.rxbuf ∧ ∀ m, m < 8 * s.cfg.bitp + s.cfg.halfp →
      Receiving e b m (loopback (s.cfg.bitp + m) t) ∧
        (loopback (s.cfg.bitp + m) t).rxd = slot b (m / s.cfg.bitp) := by
  obtain ⟨-, hb, -, hhb, -⟩ := (config_ok_iff _).mp hi.1
  obtain ⟨e, hedge, hcfg, hrun', hview⟩ := loopback_startEdge hi hrun hie hsend hmode hrxd
  obtain ⟨-, -, hbit', hmode', hbuf, -, hrxd'⟩ := rxView_eq_iff.mp hview
  refine ⟨e, hcfg, hbuf, fun m hm => ?_⟩
  have hline (m : Nat) (hm : m < 8 * s.cfg.bitp + s.cfg.halfp) :
      (loopback (s.cfg.bitp + m) t).rxd = slot b (m / s.cfg.bitp) := by
    obtain ⟨n, hn⟩ : ∃ n, s.cfg.bitp + m = n + 1 := ⟨s.cfg.bitp + m - 1, by omega⟩
    have hd := loopback_rxd hi hrun hie hsend (n := n) (by omega)
    rwa [← hn, if_neg (by omega), Nat.add_div_left _ (by omega), Nat.add_sub_cancel] at hd
  refine ⟨?_, hline m hm⟩
  induction m with
  | zero =>
    rw [Nat.add_zero, hedge]
    exact .start b hrun' (hmode'.trans hmode) (hbit'.trans hbit) (hrxd'.trans hrxd)
  | succ m ih =>
    rw [← Nat.add_assoc, loopback_succ]
    exact ((ih (by omega)).bclkTick (by rw [hcfg, hi.1]) (by rw [hcfg, hline m (by omega)]) (by rwa [hcfg])).rxdSet _

end

end

/-- Settles O53: idle until the start bit, then a reception whose eighth sample comes at the tick 9*BITP + HALFP. -/
theorem loopbackReturnsTheByteSent : Obligations.LoopbackReturnsTheByteSent := by
  intro s t b hi hrun hie hmode hrxd hsend
  obtain ⟨hc, -, -, -, -, ⟨hcap, -⟩, -⟩ := id hi
  obtain ⟨-, hb, hh, hhb, -⟩ := (config_ok_iff _).mp hc
  obtain ⟨e, hcfg, hbuf, hrec⟩ := receiving_loopback hi hrun hie hsend hmode hrxd (hcap hmode)
  obtain ⟨hlast, hline⟩ := hrec (8 * s.cfg.bitp + s.cfg.halfp - 1) (by omega)
  have hpub := hlast.publishes (by rw [hcfg, hc]) (by rw [hcfg, hline]) (by rw [hcfg]; omega)
  have hend : 9 * s.cfg.bitp + s.cfg.halfp = s.cfg.bitp + (8 * s.cfg.bitp + s.cfg.halfp - 1) + 1 := by omega
  rw [hend, loopback_succ]
  refine ⟨by simpa [loopbackTick] using hpub.buf, by simpa [loopbackTick] using hpub.avail, fun n hn => ?_⟩
  by_cases hidle : n < s.cfg.bitp
  · obtain ⟨-, -, -, -, hbuf, -⟩ := rxView_eq_iff.mp (rxView_loopback_idle hi hrun hie hsend hmode hrxd hidle)
    exact hbuf
  · obtain ⟨hrec, -⟩ := hrec (n - s.cfg.bitp) (by omega)
    rw [Nat.add_sub_cancel' (by omega)] at hrec
    exact hrec.buf.trans hbuf

end Sys2Proof.Machine

/-! The SHARED start: it moves the time base of the frames in flight (70_reset_and_hazards.md R355, 41_timer.md R159). -/

namespace Sys2Proof.Machine

/-- The tick number at which a counter that counts from 0 reaches a target (R159). -/
def firstTickAt (c : Config) (target : Nat) : Nat := if target = 0 then 2 ^ c.tmrW else target

/-- No target is reached before the first tick. -/
theorem exists_firstTickAt_eq_succ (c : Config) (target : Nat) : ∃ n, firstTickAt c target = n + 1 := by
  refine Nat.exists_eq_succ_of_ne_zero ?_
  unfold firstTickAt
  split_ifs with h
  · exact (Nat.two_pow_pos _).ne'
  · exact h

/-- Every sample moves the target on and takes the line into the shift register (R252). -/
theorem bclkTick_rx_shift {s : State} (hc : s.cfg.ok = true) (hrun : s.cntRun = true) (hm : RxMatch s) :
    (bclkTick s).rxccr = addT s.cfg s.rxccr s.cfg.bitp ∧ (bclkTick s).rxsr = (rxSample s).rxsr := by
  by_cases hn : s.rxbitcnt = 1
  · obtain ⟨hccr, hsr, -⟩ := rxView_eq_iff.mp (bclkTick_rx_last hc hrun hm hn)
    exact ⟨hccr, hsr⟩
  · obtain ⟨hccr, hsr, -⟩ := rxView_eq_iff.mp (bclkTick_rx_bit hrun hm hn)
    exact ⟨hccr, hsr⟩

/-- The state `t` is `s` with its time base started again: CNT counts from 0, and the frames in flight are as they were. -/
structure BaseRestarted (s t : State) : Prop where
  cfg : t.cfg = s.cfg
  cnt : t.cnt = 0
  running : t.cntRun = true
  tx : t.txccr = s.txccr ∧ t.txsr = s.txsr ∧ t.txbitcnt = s.txbitcnt ∧ t.txIe = s.txIe ∧ t.txd = s.txd
  rx : t.rxccr = s.rxccr ∧ t.rxsr = s.rxsr ∧ t.rxbitcnt = s.rxbitcnt ∧ t.rxMode = s.rxMode ∧ t.rxd = s.rxd

theorem BaseRestarted.of_tstart {s t : State} (hs : s.cfg.topology = .shared) (h : exec .tstart s = .next t) :
    BaseRestarted s t := by
  obtain ⟨-, ⟨hh, -⟩ | ⟨-, rfl⟩⟩ := exec_next_iff.mp h
  · simp [isHeld] at hh
  · have heff : commandEffect .tstart s = { s with cnt := 0, cntRun := true } := swStart_shared hs
    rw [heff]
    exact ⟨rfl, rfl, rfl, by simp, by simp⟩

theorem BaseRestarted.of_acceptStart {s t : State} {ts : List Turn} (hr : Ready s) (hs : s.cfg.topology = .shared)
    (ht : s.turns = .event .arbitrate :: ts) (hflag : flagSet .start s = true) (hsem : s.sem = false)
    (h : step s = .next t) : BaseRestarted s t := by
  obtain ⟨-, hshared⟩ := startAcceptanceArmsAndSnapshots s ts hr ht hflag hsem
  obtain rfl := Host.Outcome.next.inj ((hshared hs).symm.trans h)
  exact ⟨rfl, rfl, rfl, by simp, by simp⟩

section
variable {s t : State} (h : BaseRestarted s t)
include h

/-- CNT is the number of ticks since the start, modulo its width. -/
theorem BaseRestarted.cnt_ticks (n : Nat) : (ticks n t).cnt = n % 2 ^ s.cfg.tmrW := by
  induction n with
  | zero => simp [h.cnt]
  | succ n ih =>
    have hrun : (ticks n t).cntRun = true := by simpa using h.running
    rw [ticks_succ, bclkTick_cnt, if_pos hrun, ih, (ticks_frame n t).1, h.cfg, addT, Nat.mod_add_mod]

/-- The next tick reaches a target exactly when it is the first one that can. -/
theorem BaseRestarted.next_eq_target_iff {target n : Nat} (ht : target < 2 ^ s.cfg.tmrW)
    (hn : n < firstTickAt s.cfg target) :
    addT (ticks n t).cfg (ticks n t).cnt 1 = target ↔ n + 1 = firstTickAt s.cfg target := by
  rw [(ticks_frame n t).1, h.cfg, h.cnt_ticks, addT, Nat.mod_add_mod]
  unfold firstTickAt at hn ⊢
  split_ifs at hn ⊢ with h0
  · obtain heq | hlt := (show n + 1 ≤ 2 ^ s.cfg.tmrW from hn).eq_or_lt
    · rw [heq, Nat.mod_self]; omega
    · rw [Nat.mod_eq_of_lt hlt]; omega
  · rw [Nat.mod_eq_of_lt (by omega)]

/-- Before its first tick the TX channel has no action. -/
theorem BaseRestarted.tx_before {n : Nat} (ht : s.txccr < 2 ^ s.cfg.tmrW) (hn : n < firstTickAt s.cfg s.txccr) :
    (ticks n t).txccr = s.txccr ∧ (ticks n t).txsr = s.txsr ∧ (ticks n t).txbitcnt = s.txbitcnt ∧
      (ticks n t).txIe = s.txIe ∧ (ticks n t).txd = s.txd := by
  induction n with
  | zero => exact h.tx
  | succ n ih =>
    obtain ⟨hccr, hsr, hbit, hie, hd⟩ := ih (by omega)
    have hm : ¬TxMatch (ticks n t) := fun hm => by
      have := (h.next_eq_target_iff ht (by omega)).mp (hm.2.trans hccr)
      omega
    obtain ⟨-, -, -, hccr', hsr', hbit', hie', hd'⟩ :=
      txView_eq_iff.mp (bclkTick_tx_noMatch (by simpa using h.running) hm)
    rw [ticks_succ]
    exact ⟨hccr'.trans hccr, hsr'.trans hsr, hbit'.trans hbit, hie'.trans hie, hd'.trans hd⟩

/-- At its first tick the TX channel has its action. -/
theorem BaseRestarted.tx_first (hc : s.cfg.ok = true) (ht : s.txccr < 2 ^ s.cfg.tmrW) (hie : s.txIe = true) :
    (ticks (firstTickAt s.cfg s.txccr) t).txsr = s.txsr >>> 1 ∧
      (ticks (firstTickAt s.cfg s.txccr) t).txd = s.txsr.getLsbD 0 ∧
      (ticks (firstTickAt s.cfg s.txccr) t).txccr = addT s.cfg s.txccr s.cfg.bitp := by
  obtain ⟨n, hn⟩ := exists_firstTickAt_eq_succ s.cfg s.txccr
  have hcfg : (ticks n t).cfg = s.cfg := by simpa using h.cfg
  obtain ⟨hccr, hsr, -, hie', -⟩ := h.tx_before ht (show n < _ by omega)
  have hm : TxMatch (ticks n t) :=
    ⟨hie'.trans hie, ((h.next_eq_target_iff ht (by omega)).mpr hn.symm).trans hccr.symm⟩
  obtain ⟨hccr', hsr', hd'⟩ := bclkTick_tx_shift (by rw [hcfg, hc]) (by simpa using h.running) hm
  rw [hn, ticks_succ, hccr', hsr', hd', hccr, hsr, hcfg]
  exact ⟨rfl, rfl, rfl⟩

/-- Before its first tick the RX channel has no action. -/
theorem BaseRestarted.rx_before {n : Nat} (ht : s.rxccr < 2 ^ s.cfg.tmrW) (hn : n < firstTickAt s.cfg s.rxccr) :
    (ticks n t).rxccr = s.rxccr ∧ (ticks n t).rxsr = s.rxsr ∧ (ticks n t).rxbitcnt = s.rxbitcnt ∧
      (ticks n t).rxMode = s.rxMode ∧ (ticks n t).rxd = s.rxd := by
  induction n with
  | zero => exact h.rx
  | succ n ih =>
    obtain ⟨hccr, hsr, hbit, hmode, hd⟩ := ih (by omega)
    have hm : ¬RxMatch (ticks n t) := fun hm => by
      have := (h.next_eq_target_iff ht (by omega)).mp (hm.2.trans hccr)
      omega
    obtain ⟨hccr', hsr', hbit', hmode', -, -, hd'⟩ :=
      rxView_eq_iff.mp (bclkTick_rx_noMatch (by simpa using h.running) hm)
    rw [ticks_succ]
    exact ⟨hccr'.trans hccr, hsr'.trans hsr, hbit'.trans hbit, hmode'.trans hmode, hd'.trans hd⟩

/-- At its first tick the RX channel has its action. -/
theorem BaseRestarted.rx_first (hc : s.cfg.ok = true) (ht : s.rxccr < 2 ^ s.cfg.tmrW) (hmode : s.rxMode = .compare) :
    (ticks (firstTickAt s.cfg s.rxccr) t).rxsr = (rxSample s).rxsr ∧
      (ticks (firstTickAt s.cfg s.rxccr) t).rxccr = addT s.cfg s.rxccr s.cfg.bitp := by
  obtain ⟨n, hn⟩ := exists_firstTickAt_eq_succ s.cfg s.rxccr
  have hcfg : (ticks n t).cfg = s.cfg := by simpa using h.cfg
  obtain ⟨hccr, hsr, -, hmode', hd⟩ := h.rx_before ht (show n < _ by omega)
  have hm : RxMatch (ticks n t) :=
    ⟨hmode'.trans hmode, ((h.next_eq_target_iff ht (by omega)).mpr hn.symm).trans hccr.symm⟩
  obtain ⟨hccr', hsr'⟩ := bclkTick_rx_shift (by rw [hcfg, hc]) (by simpa using h.running) hm
  have hsample : (rxSample (ticks n t)).rxsr = (rxSample s).rxsr := by simp only [rxSample, hsr, hd]
  rw [hn, ticks_succ, hccr', hsr', hsample, hccr, hcfg]
  exact ⟨rfl, rfl⟩

end

/-- Settles O56: either start leaves CNT at 0 and the frames in flight as they were, and each channel's next action is at the
first tick that reaches its target. -/
theorem sharedStartDelaysNextSlot : Obligations.SharedStartDelaysNextSlot := by
  intro s t hr hs htx hrx hstart
  have h : BaseRestarted s t := by
    obtain hexec | ⟨⟨ts, ht⟩, hflag, hsem, hstep⟩ := hstart
    · exact .of_tstart hs hexec
    · exact .of_acceptStart hr hs ht hflag hsem hstep
  refine ⟨fun n hn => by rw [h.cnt_ticks, Nat.mod_eq_of_lt hn], fun hie => ⟨fun n hn => ?_, h.tx_first hr.1 htx hie⟩,
    fun hmode => ⟨fun n hn => ?_, h.rx_first hr.1 hrx hmode⟩⟩
  · obtain ⟨-, hsr, hbit, hie', hd⟩ := h.tx_before htx hn
    exact ⟨hsr, hd, hbit, hie'.trans hie⟩
  · obtain ⟨-, hsr, hbit, hmode', -⟩ := h.rx_before hrx hn
    exact ⟨hsr, hbit, hmode'.trans hmode⟩

end Sys2Proof.Machine

/-! The reference host behind the semaphore (45_host_loop.md R280). -/

namespace Sys2Proof.Machine

/-! ### The phases -/

/-- Only the readings behind the semaphore issue LELAP. -/
theorem behind_of_lelap {p : HostPhase} (h : hostCommand p = some .lelap) : behindSemaphore p = true := by
  unfold hostCommand at h
  split at h <;> cases h
  all_goals rfl

/-- LPOLL is issued by the wait for SEM and by the dispatch. -/
theorem waitSem_or_behind_of_lpoll {p : HostPhase} (h : hostCommand p = some .lpoll) :
    p = .waitSem ∨ behindSemaphore p = true := by
  unfold hostCommand at h
  split at h <;> cases h
  · exact .inl rfl
  · exact .inr rfl

theorem settleAck_of_lack {p : HostPhase} (h : hostCommand p = some .lack) : p = .settleAck := by
  unfold hostCommand at h
  split at h <;> cases h
  rfl

/-- The dispatch stays behind the semaphore (R282). -/
theorem behind_dispatchOn (h : HostConfig) (id : ButtonId) : behindSemaphore (dispatchOn h id) = true := by
  cases id <;> rfl

/-- A phase without a command does not cross the semaphore. -/
theorem behind_phaseAdvance (h : HostConfig) (rng : Nat → Nat → Nat) {p : HostPhase} (hp : hostCommand p = none) :
    behindSemaphore (phaseAdvance h rng p) = behindSemaphore p := by
  unfold phaseAdvance
  split
  case h_8 => split <;> rfl
  all_goals rfl

/-- Of the phases with a command only the wait for SEM and the LACK cross the semaphore. -/
theorem behind_phaseAfter (h : HostConfig) (v : Nat) {p : HostPhase} (hw : p ≠ .waitSem) (ha : p ≠ .settleAck) :
    behindSemaphore (phaseAfter h v p) = behindSemaphore p := by
  cases p with
  | waitSem => exact absurd rfl hw
  | settleAck => exact absurd rfl ha
  | dispatch => exact behind_dispatchOn h _
  | _ => rfl

/-! ### A turn of the host -/

/-- Bit 0 of LPOLL's word is SEM (R107). -/
theorem lpollWord_testBit_zero (s : State) : (lpollWord s).toNat.testBit 0 = s.sem := by
  have hmod : (lpollWord s).toNat % 2 = s.sem.toNat := by
    rw [lpollWord_toNat]
    have := s.sem.toNat_lt
    omega
  rw [Nat.testBit_zero, hmod]
  cases s.sem <;> rfl

/-- A presented command that is not LACK leaves SEM. -/
theorem present_sem {i : Instr} {s s' : State} (hi : i ≠ .lack) (h : present (encode i) s = .next s') :
    s'.sem = s.sem := by
  obtain ⟨-, rfl, -⟩ | ⟨-, -, rfl⟩ := present_encode_next h
  · rfl
  · simp [commandEffect_sem hi]

/-- The host's side of the semaphore and the semaphore itself are as they were. -/
def SameSide (c d : Console) : Prop := behindSemaphore d.phase = behindSemaphore c.phase ∧ d.block.sem = c.block.sem

/-- A presented LPOLL completes at once, leaves SEM and returns it in bit 0 (R189). -/
theorem present_lpoll {s s' : State} (h : present (encode .lpoll) s = .next s') :
    accepted s' = true ∧ s'.sem = s.sem ∧ ∃ v, s'.resp = some v ∧ v.testBit 0 = s.sem := by
  obtain ⟨hheld, -⟩ | ⟨-, hacc, rfl⟩ := present_encode_next h
  · simp [isHeld] at hheld
  · exact ⟨hacc, rfl, _, rfl, lpollWord_testBit_zero _⟩

/-- The wait for SEM goes on exactly while SEM = 0 (R282). -/
theorem phaseTurn_waitSem {rng : Nat → Nat → Nat} {c d : Console} (hp : c.phase = .waitSem)
    (h : phaseTurn rng c = .next d) :
    SameSide c d ∨ (d.block.sem = true ∧ ∃ v, d.block.resp = some v ∧ v.testBit 0 = true) := by
  simp only [phaseTurn, hp, hostCommand] at h
  obtain ⟨s, hs, rfl⟩ := within_next_iff.mp h
  obtain ⟨hacc, hsem, v, hv, hbit⟩ := present_lpoll hs
  rw [if_pos hacc]
  cases hc : c.block.sem with
  | false =>
    have hwait : phaseAfter c.host (s.resp.getD 0) .waitSem = .waitSem := by
      simp only [phaseAfter, hv, Option.getD_some, hbit.trans hc, Bool.false_eq_true, if_false]
    exact .inl ⟨by rw [hwait, hp]; rfl, hsem⟩
  | true => exact .inr ⟨hsem.trans hc, v, hv, hbit.trans hc⟩

/-- The LACK of the settle clears SEM and leaves the phases behind the semaphore (R290). -/
theorem phaseTurn_settleAck {rng : Nat → Nat → Nat} {c d : Console} (hp : c.phase = .settleAck)
    (h : phaseTurn rng c = .next d) : behindSemaphore d.phase = false ∧ d.block.sem = false := by
  simp only [phaseTurn, hp, hostCommand] at h
  obtain ⟨s, hs, rfl⟩ := within_next_iff.mp h
  obtain ⟨hheld, -⟩ | ⟨-, hacc, rfl⟩ := present_encode_next hs
  · simp [isHeld] at hheld
  · simp only [if_pos hacc]
    exact ⟨rfl, rfl⟩

/-- Every other phase stays on its side. -/
theorem phaseTurn_sameSide {rng : Nat → Nat → Nat} {c d : Console} (hw : c.phase ≠ .waitSem)
    (ha : c.phase ≠ .settleAck) (h : phaseTurn rng c = .next d) : SameSide c d := by
  unfold phaseTurn at h
  split at h
  next hcmd =>
    cases h
    exact ⟨behind_phaseAdvance c.host rng hcmd, rfl⟩
  next i hcmd =>
    obtain ⟨s, hs, rfl⟩ := within_next_iff.mp h
    have hsem : s.sem = c.block.sem := present_sem (fun hi => ha (settleAck_of_lack (by rw [hcmd, hi]))) hs
    split
    · exact ⟨behind_phaseAfter c.host _ hw ha, hsem⟩
    · exact ⟨rfl, hsem⟩

/-- What a turn of the host can do: stay on its side of the semaphore, in its loop or in an echo; find SEM = 1; or
acknowledge. -/
theorem consoleHostTurn_cases {rng : Nat → Nat → Nat} {c d : Console} (h : consoleHostTurn rng c = .next d) :
    SameSide c d ∨
      (c.phase = .waitSem ∧ d.block.sem = true ∧ ∃ v, d.block.resp = some v ∧ v.testBit 0 = true) ∨
      (c.phase = .settleAck ∧ behindSemaphore d.phase = false ∧ d.block.sem = false) := by
  obtain ⟨-, h⟩ := consoleGuarded_next_iff.mp h
  split at h
  next e _ =>
    obtain ⟨s, hs, rfl⟩ := within_next_iff.mp h
    exact .inl ⟨rfl, present_sem (by cases e <;> simp [echoCommand]) hs⟩
  next =>
    by_cases hw : c.phase = .waitSem
    · exact (phaseTurn_waitSem hw h).imp_right fun hfound => .inl ⟨hw, hfound⟩
    · by_cases ha : c.phase = .settleAck
      · exact .inr (.inr ⟨ha, phaseTurn_settleAck ha h⟩)
      · exact .inl (phaseTurn_sameSide hw ha h)

/-- The other agents keep a pending event's SEM (R89). -/
theorem consoleEventTurn_keeps {e : Event} {c d : Console} (h : consoleEventTurn e c = .next d) :
    d.phase = c.phase ∧ (ConsoleInv c → ConsoleInv d) := by
  obtain ⟨-, h⟩ := consoleGuarded_next_iff.mp h
  obtain ⟨s, hs, rfl⟩ := within_next_iff.mp h
  obtain rfl := happen_next hs
  refine ⟨rfl, fun hinv hb => ?_⟩
  have hsem : c.block.sem = true := hinv hb
  exact (congrArg Prod.fst (runEvent_mailbox_of_pending e hsem)).trans hsem

/-- Settles O57: by what a turn of the host, and one of another agent, can do to SEM and to the host's side of it. -/
theorem hostReadsOnlyBehindSemaphore : Obligations.HostReadsOnlyBehindSemaphore := by
  refine ⟨fun _ => behind_of_lelap, fun _ => waitSem_or_behind_of_lpoll, fun rng c d => ⟨fun h => ?_, fun e =>
    consoleEventTurn_keeps⟩⟩
  obtain ⟨hside, hsem⟩ | ⟨hw, hsem, hfound⟩ | ⟨ha, hside, hsem⟩ := consoleHostTurn_cases h
  · refine ⟨fun hinv hb => hsem.trans (hinv (hside ▸ hb)), fun hc hd => ?_, fun hc hd => ?_⟩
    · simp [hside, hc] at hd
    · simp [hside, hc] at hd
  · exact ⟨fun _ _ => hsem, fun _ _ => ⟨hw, hfound⟩, fun hc => by simp [hw, behindSemaphore] at hc⟩
  · exact ⟨fun _ hb => by simp [hside] at hb, fun _ hd => by simp [hside] at hd,
      fun _ _ => ⟨by rw [ha, hostCommand], hsem⟩⟩

end Sys2Proof.Machine

/-! Decimal rendering (45_host_loop.md R284, 92_eei_decisions.md D33). -/

namespace Sys2Proof.Machine

/-- A digit's code is `0x30` plus the digit. -/
theorem digitByte_toNat {d : Nat} (hd : d < 10) : (digitByte d).toNat = 0x30 + d := by
  simp [digitByte]
  omega

/-- A further digit at the end counts ten times the digits before it. -/
theorem decimalValue_append_digit (ds : List Byte) {d : Nat} (hd : d < 10) :
    decimalValue (ds ++ [digitByte d]) = decimalValue ds * 10 + d := by
  simp [decimalValue, digitByte_toNat hd]

theorem decimalValue_digit {d : Nat} (hd : d < 10) : decimalValue [digitByte d] = d := by
  simpa [decimalValue] using decimalValue_append_digit [] hd

/-- With room for its digits a number is rendered exactly. -/
theorem decimalValue_decimalFrom {fuel n : Nat} (h : n ≤ fuel) : decimalValue (decimalFrom fuel n) = n := by
  induction fuel generalizing n with
  | zero =>
    obtain rfl : n = 0 := by omega
    exact decimalValue_digit (by omega)
  | succ fuel ih =>
    unfold decimalFrom
    split
    next hn => exact decimalValue_digit hn
    next =>
      rw [decimalValue_append_digit _ (Nat.mod_lt _ (by omega)), ih (by omega)]
      omega

/-- Only digits are rendered. -/
theorem decimalFrom_digits {fuel n : Nat} : ∀ d ∈ decimalFrom fuel n, ∃ k, k < 10 ∧ d = digitByte k := by
  induction fuel generalizing n with
  | zero => simpa [decimalFrom] using ⟨n % 10, Nat.mod_lt _ (by omega), rfl⟩
  | succ fuel ih =>
    unfold decimalFrom
    split
    next hn => simpa using ⟨n, hn, rfl⟩
    next =>
      intro d hd
      obtain hd | hd := List.mem_append.mp hd
      · exact ih d hd
      · exact ⟨n % 10, Nat.mod_lt _ (by omega), List.mem_singleton.mp hd⟩

/-- The digit 0 leads only in the number 0. -/
theorem eq_zero_of_digitByte {d : Nat} (hd : d < 10) (h : digitByte d = 0x30) : d = 0 := by
  have hcode := digitByte_toNat hd
  rw [h] at hcode
  simpa using hcode

theorem decimalFrom_ne_nil (fuel n : Nat) : decimalFrom fuel n ≠ [] := by
  cases fuel with
  | zero => simp [decimalFrom]
  | succ fuel => unfold decimalFrom; split <;> simp

/-- There is no leading zero. -/
theorem decimalFrom_head {fuel n : Nat} (h : n ≤ fuel) (hz : (decimalFrom fuel n).head? = some 0x30) : n = 0 := by
  induction fuel generalizing n with
  | zero => omega
  | succ fuel ih =>
    unfold decimalFrom at hz
    split at hz
    next hn => exact eq_zero_of_digitByte hn (Option.some.inj hz)
    next hn =>
      rw [List.head?_append_of_ne_nil _ (decimalFrom_ne_nil _ _)] at hz
      have := ih (n := n / 10) (by omega) hz
      omega

/-- Settles O59: by induction on the bound of the number of digits, which the number itself meets. -/
theorem decimalRenderingIsExact : Obligations.DecimalRenderingIsExact := by
  refine ⟨rfl, fun n => ⟨decimalValue_decimalFrom le_rfl, fun d hd => ?_, decimalFrom_head le_rfl⟩⟩
  obtain ⟨k, hk, rfl⟩ := decimalFrom_digits d hd
  rw [digitByte_toNat hk]
  omega

end Sys2Proof.Machine

/-! The round-start delay (45_host_loop.md R286, R287). -/

namespace Sys2Proof.Machine

/-- A draw is admitted within the bounds, the lower one by the reading (R286). -/
theorem delayAdmitted_iff (h : HostConfig) (d : Nat) :
    delayAdmitted h d = true ↔
      (h.delayIncl = true ∧ h.delayLo ≤ d ∨ h.delayIncl = false ∧ h.delayLo < d) ∧ d < h.delayHi := by
  cases hi : h.delayIncl <;> simp [delayAdmitted, hi]

/-- A configuration is accepted unless its interval is empty (R287). -/
theorem delayConfigOk_eq_false_iff (h : HostConfig) :
    delayConfigOk h = false ↔
      h.delayIncl = true ∧ h.delayHi ≤ h.delayLo ∨ h.delayIncl = false ∧ h.delayHi ≤ h.delayLo + 1 := by
  cases hi : h.delayIncl <;> simp [delayConfigOk, hi]

/-- A configuration is accepted exactly when its lowest draw, or the one above it, is admitted. -/
theorem delayConfigOk_iff_exists (h : HostConfig) : delayConfigOk h = true ↔ ∃ d, delayAdmitted h d = true := by
  simp only [delayAdmitted_iff]
  cases hi : h.delayIncl with
  | true =>
    simp only [delayConfigOk, hi, if_true, decide_eq_true_eq]
    exact ⟨fun hlt => ⟨h.delayLo, by simp, hlt⟩, fun ⟨d, hd, hlt⟩ => by simp at hd; omega⟩
  | false =>
    simp only [delayConfigOk, hi, Bool.false_eq_true, if_false, decide_eq_true_eq]
    exact ⟨fun hlt => ⟨h.delayLo + 1, by simp, hlt⟩, fun ⟨d, hd, hlt⟩ => by simp at hd; omega⟩

/-- Settles O60: a draw is taken by `delayAdmitted`, and an empty interval is the first reason to refuse a host. -/
theorem delayDrawIsWithinBounds : Obligations.DelayDrawIsWithinBounds := by
  intro h
  refine ⟨fun rng seed k => ?_, ?_, fun hempty => ?_⟩
  · simp only [phaseAdvance, delayAdmitted_iff]
  · simp only [delayConfigOk_iff_exists, delayAdmitted_iff]
  · have hrefused := hostRefusal_of_delay ((delayConfigOk_eq_false_iff h).mpr hempty)
    refine ⟨fun c l => by rw [consoleBoot, hrefused], ?_⟩
    rintro c rfl
    exact ⟨fun rng => consoleGuarded_refused hrefused _, fun e => consoleGuarded_refused hrefused _⟩

end Sys2Proof.Machine

/-! The step at each kind of turn, the gate before it, and reset (40_block.md R142, 00_scope.md R8,
60_exceptions.md R311). -/

namespace Sys2Proof.Machine

/-! ### HOST's turn and an event's -/

theorem step_presentedCommand {s : State} {w : Word} {ws : List Word} {ts : List Turn} {i : Instr}
    (ht : s.turns = .host :: ts) (hp : s.program = w :: ws) (hd : decode w = .ok i) :
    step s = exec i { s with turns := ts } := by
  rw [step, nextTurn_cons ht, takeTurn_cons ht]
  simp only [runTurn, hostTurn, presentedWord, hp, List.head?_cons, hd]

/-- The word that `withFetchWord` places is the whole of a 16-bit word. -/
theorem withFetchWord_eq (s : State) (w : Word) :
    s.withFetchWord 16 w.toNat = { s with program := w :: s.program, turns := .host :: s.turns } := by
  have hw : BitVec.ofNat 16 (w.toNat % 2 ^ 16) = w := by
    rw [Nat.mod_eq_of_lt w.isLt, BitVec.ofNat_toNat, BitVec.setWidth_eq]
  rw [State.withFetchWord, hw]

/-- Settles O6: HOST's turn decodes the first word of the program, and a placed word is that word. -/
theorem stepRunsPresentedCommand : Obligations.StepRunsPresentedCommand := by
  refine ⟨fun s w ws ts i ht hp hd => step_presentedCommand ht hp hd, fun s w i hd => ?_⟩
  rw [withFetchWord_eq]
  exact step_presentedCommand rfl rfl hd

/-- Settles O7: an event without a step passes over. -/
theorem stepRunsEvent : Obligations.StepRunsEvent := by
  refine fun s e ts hr ht => ⟨step_enabledEvent hr ht, fun he => ?_⟩
  rw [step, nextTurn_cons ht, takeTurn_cons ht, runTurn, eventTurn, runEvent, eventEnabled_turns, he]
  exact guarded_ready hr _

/-- Settles O4, by decoding the eight words. -/
theorem tableWordsDecodeAsWritten : Obligations.TableWordsDecodeAsWritten := by
  and_intros <;> rfl

/-! ### The gate -/

/-- HOST's turn is one of three things behind the gate: nothing, a command, or the illegal-word step. -/
theorem hostTurn_cases (s : State) :
    hostTurn s = guarded s (.next s) ∨ (∃ i, hostTurn s = exec i s) ∨ hostTurn s = illegalCommand s := by
  unfold hostTurn
  split
  · exact .inl rfl
  · split
    · exact .inr (.inl ⟨_, rfl⟩)
    · exact .inr (.inr rfl)

/-- Outside R8 every turn is refused (log 6). -/
theorem runTurn_badConfig (t : Turn) {s : State} (h : s.cfg.ok = false) : runTurn t s = .refused .configOutOfRange := by
  cases t with
  | host =>
    obtain hh | ⟨i, hh⟩ | hh := hostTurn_cases s
    · exact hh.trans (guarded_badConfig h _)
    · exact hh.trans (exec_badConfig h)
    · exact hh.trans (guarded_badConfig h _)
  | event e => exact guarded_badConfig h _
  | reset l => exact if_pos h

/-- Settles O8: the constraints as inequalities, and the gate of every turn and command. -/
theorem configOutOfRangeIsRefused : Obligations.ConfigOutOfRangeIsRefused :=
  ⟨by decide, fun s => ⟨config_ok_iff s.cfg, fun h =>
    ⟨runTurn_badConfig _ (by simpa using h), fun _ => exec_badConfig h⟩⟩⟩

/-- While halted every turn but a reset is the fault HALT (R311). -/
theorem runTurn_halted {t : Turn} {s : State} (hc : s.cfg.ok = true) (hh : s.halted = true) (ht : notReset t = true) :
    runTurn t s = .fault .halt := by
  cases t with
  | host =>
    obtain hk | ⟨i, hk⟩ | hk := hostTurn_cases s
    · exact hk.trans (guarded_halted hc hh _)
    · exact hk.trans (exec_halted hc hh)
    · exact hk.trans (guarded_halted hc hh _)
  | event e => exact guarded_halted hc hh _
  | reset l => simp [notReset] at ht

/-- A reset turn relaunches the block, halted or not (R311). -/
theorem runTurn_reset (l : Launch) {s : State} (hc : s.cfg.ok = true) : runTurn (.reset l) s = .next (relaunch l s) := by
  simp [runTurn, resetTurn, hc]

/-- Settles O24: HALTED closes the gate of every turn but a reset, which writes it from CAL_OK. -/
theorem haltStopsEveryAgentUntilReset : Obligations.HaltStopsEveryAgentUntilReset :=
  ⟨fun _ _ => rfl, fun _ hc hh => ⟨fun _ => exec_halted hc hh, fun _ ht => runTurn_halted hc hh ht, fun l =>
    ⟨_, runTurn_reset l hc, by simp [relaunch, State.launch]⟩⟩⟩

/-- Settles O26: the turn is taken, and the block is launched beside HOST's words and the turns. -/
theorem resetTurnRelaunchesBlock : Obligations.ResetTurnRelaunchesBlock := by
  intro s l ts hc ht
  rw [step, nextTurn_cons ht, takeTurn_cons ht]
  exact runTurn_reset l hc

end Sys2Proof.Machine

/-! The remaining commands that read, and LACK (41_timer.md R157, 42_latch.md R190, R191, 20_memory.md R86). -/

namespace Sys2Proof.Machine

/-- Settles O13: TNOW is never held, its effect is the identity, and its response is CNT. -/
theorem tnowReturnsCnt : Obligations.TnowReturnsCnt :=
  ⟨decode_encode .tnow, fun _ hr => exec_completes hr rfl⟩

/-- Settles O19: LELAP is never held, its effect is the identity, and its response is ELAPSED. -/
theorem lelapReturnsElapsed : Obligations.LelapReturnsElapsed :=
  ⟨decode_encode .lelap, fun _ hr => exec_completes hr rfl⟩

/-- Settles O20: LACK is never held, and its response is 0. -/
theorem lackClearsSemaphoreOnly : Obligations.LackClearsSemaphoreOnly :=
  ⟨decode_encode .lack, fun _ hr => exec_completes hr rfl⟩

/-- Settles O27: the words of the reset values as sums of their fields. -/
theorem statusWordsAtReset : Obligations.StatusWordsAtReset := by
  intro c l hc hcal hrxd
  obtain ⟨htx, hrx⟩ := reload_of_ok hc
  have hr : Ready (State.launch c l) := ⟨hc, by simp [State.launch, hcal]⟩
  have hustat : (ustatWord (State.launch c l)).toNat = 0x8A18 := by
    rw [ustatWord_toNat]
    simp [State.launch, htx, hrx, hrxd, rxModeBit]
  have hlpoll : (lpollWord (State.launch c l)).toNat = 0x4010 := by
    rw [lpollWord_toNat]
    simp [State.launch, lstateBit, buttonCode, swRunning_eq_ite]
  exact ⟨by rw [exec_completes hr rfl, ← hustat]; rfl, by rw [exec_completes hr rfl, ← hlpoll]; rfl⟩

/-- A read: a command that is never held, changes no element of the block, and returns what its own completion leaves. -/
structure IsRead (i : Instr) : Prop where
  effect : commandEffect i = id
  notHeld : ∀ s, isHeld i s = false
  response : ∀ v s, commandResponse i (respond v s) = commandResponse i s

theorem isRead_of_mem {i : Instr} (h : i ∈ [Instr.tnow, .tread, .ustat, .lpoll, .lelap, .fltrd]) : IsRead i := by
  simp only [List.mem_cons, List.not_mem_nil, or_false] at h
  obtain rfl | rfl | rfl | rfl | rfl | rfl := h <;> exact ⟨rfl, fun _ => rfl, fun _ _ => rfl⟩

/-- A read returns its response and leaves the block as it is. -/
theorem IsRead.exec_next {i : Instr} {s t : State} (h : IsRead i) (hx : exec i s = .next t) :
    t = respond (commandResponse i s) s := by
  obtain ⟨-, ⟨hh, -⟩ | ⟨-, rfl⟩⟩ := exec_next_iff.mp hx
  · simp [h.notHeld] at hh
  · rw [h.effect, id]

/-- Settles O49: a read's response is read off elements that its completion does not write. -/
theorem readsAreIdempotent : Obligations.ReadsAreIdempotent := by
  intro i s t u hi ht hu
  have hread := isRead_of_mem hi
  obtain rfl := hread.exec_next ht
  obtain rfl := hread.exec_next hu
  exact ⟨rfl, congrArg some (hread.response _ _)⟩

end Sys2Proof.Machine
